-- ==== Sys2Proof/Word.lean ====
section
/-!
DEFINITION. Word types of the two links, and their plainest arithmetic (00_scope.md §0.8).
-/

namespace Sys2Proof

/-- One byte of a frame, a reply or an entry. -/
abbrev Byte := BitVec 8

/-- Part-clock times, sequence numbers and references: 32 bits (Table 11-1). -/
abbrev Word32 := BitVec 32

/-- Station-side meter counts: 24 bits, differences modulo 2^24 (00_scope.md §0.8). -/
abbrev Count24 := BitVec 24

/-- Product marks of a queue event, one bit for each product index (R39). -/
abbrev Marks := BitVec 32

/-- Addition that stays at `cap` once it has reached it. -/
def satAdd (cap a b : Nat) : Nat := min cap (a + b)

/-- Division rounded up. -/
def ceilDiv (a b : Nat) : Nat := (a + b - 1) / b

end Sys2Proof
end

