-- ==== Sys2Proof/Syntax.lean ====
section
/-!
DEFINITION. The commands of the block: one constructor for each row of opcode_table.json, with the row's operands, and the
types of those operands. Enumerated types name their values in the order in which the spec first gives them (R194).
-/

namespace Sys2Proof

/-- Station types (Table 5-3). -/
inductive StationType where
  | tap | cellar | cooling | cleaning
  deriving DecidableEq, Repr

/-- Tap modes (Table 3-1). -/
inductive TapMode where
  | ticket | free
  deriving DecidableEq, Repr

/-- What a line holds (Table 1-4). -/
inductive Content where
  | beer | gas | water | cleaner | unproven
  deriving DecidableEq, Repr

/-- Directions of SET_LINE_SERVICE (R22). -/
inductive Direction where
  | out | into
  deriving DecidableEq, Repr

/-- Media of a cleaning step (Table 7-1). -/
inductive Medium where
  | water | caustic | acid
  deriving DecidableEq, Repr

/-- Actions of a cleaning step (Table 7-1). -/
inductive StepAction where
  | push | recirculate | soak | pulse | prove
  deriving DecidableEq, Repr

/-- What a failed PROVE does (Table 7-1): ABORT or REPEAT. -/
inductive OnFail where
  | abort | again
  deriving DecidableEq, Repr

/-- Choice of the minimum times (R108). -/
inductive MinTimes where
  | standard | programmed
  deriving DecidableEq, Repr

/-- Steps of the table cursor (R191). -/
inductive ReadStep where
  | every | inUse
  deriving DecidableEq, Repr

/-- Tables of READ_TABLE, in the order of Table 10-4. -/
inductive TableName where
  | products | sources | lines | tickets | taps | stations | stationInputs | stationOutputs | cooling | stages | trunks
  | programmes | jobs | circuits | journalState | accounts | productTotals | tapTotals | mode | link
  deriving DecidableEq, Repr

/-- Rates of the host link (Table 10-1). -/
inductive Rate where
  | r57600 | r115200 | r230400 | r460800
  deriving DecidableEq, Repr

/-- A field holding an enumerated value: one of its values, absent, or a number outside its values (R194). -/
inductive EnumField (α : Type) where
  | val (a : α)
  | absent
  | bad (n : Nat)
  deriving DecidableEq, Repr

/-- What a request frame carries beside its fields: the tag, how many of its bytes were noisy (R185; the mark of the sync byte is
counted nowhere, R184), and the body length as received when it differs from the layout of its kind (`none`: it fits; R188). -/
structure ReqHdr where
  tag : Byte
  noisy : Nat
  length : Option Nat
  deriving DecidableEq, Repr

/-- One step item of DEFINE_PROGRAMME, field by field as R194 lays it out. -/
structure StepField where
  action : EnumField StepAction
  medium : EnumField Medium
  duration : Option Nat
  factor : Option Nat
  threshold : Option Nat
  limit : Option Nat
  onFail : EnumField OnFail
  count : Option Nat
  deriving DecidableEq, Repr

/-- One byte as the host link receiver has taken it, with its marks (R184). -/
structure RxByte where
  value : Byte
  noisy : Bool
  framing : Bool
  deriving DecidableEq, Repr

/-- The three samples of one bit of a character (R184). -/
structure BitSamples where
  first : Bool
  second : Bool
  third : Bool
  deriving DecidableEq, Repr

/-- One character on RXD as the receiver samples it: its start bit, its 8 data bits, the least significant first, and its stop
bit (R184, Table 10-1). -/
structure RxChar where
  start : BitSamples
  data : Vector BitSamples 8
  stop : BitSamples
  deriving DecidableEq, Repr

/-- One character of the station bus: its 8 data bits, its mark bit and its stop bit (R82). -/
structure BusChar where
  value : Byte
  mark : Bool
  stop : Bool
  deriving DecidableEq, Repr

/-- The 11 bits of a character of the station bus, in the order in which they stand on the bus: the start bit, the 8 data bits,
the mark bit and the stop bit (R82). -/
abbrev BusBits := Vector Bool 11

/-- What came in an exchange that brought no reply (R84): the characters received, and whether the first came after the timeout or a
gap between two was too long. -/
structure MissedReply where
  late : Bool
  characters : List BusBits
  deriving DecidableEq, Repr

/-- Inputs of one tap (Table 11-7). -/
structure TapInput where
  pressed : Bool
  capFitted : Bool
  valveOpen : Bool
  cutOff : Bool
  count : Count24
  deriving DecidableEq, Repr

/-- Inputs of one cleaning circuit (Table 11-7). -/
structure CircuitInput where
  above : Bool
  meter : Count24
  running : Bool
  deriving DecidableEq, Repr

/-- A station's whole input image, by type (Table 11-7). Temperatures in tenths of a degree. -/
inductive InputImage where
  | tap (taps : List TapInput)
  | cellar (kegPresent : Vector Bool 16) (fobTripped : Vector Bool 12)
  | cooling (bath : Int) (running tripped : Vector Bool 3) (returns : Vector Int 8) (pumps : Vector Bool 8)
  | cleaning (tankLow : Vector Bool 3) (circuits : Vector CircuitInput 2)
  deriving DecidableEq, Repr

/-- A STATUS reply as received: its address, flags and image (R83, Table 11-7). -/
structure StatusReply where
  address : Nat
  restarted : Bool
  holdExpired : Bool
  attention : Bool
  image : InputImage
  deriving DecidableEq, Repr

/-- What a DESCRIPTOR tells of its station (Table 11-5). -/
structure Descriptor where
  kind : EnumField StationType
  restarted : Bool
  taps : Nat
  couplers : Nat
  outlets : Nat
  stages : Nat
  trunks : Nat
  circuits : Nat
  deriving DecidableEq, Repr

/-- The commands, one for each row of opcode_table.json and in its order. -/
inductive Instr where
  /-- DEFINE_PRODUCT (R2). -/
  | defineProduct (h : ReqHdr) (index code : Nat) (name : List Byte) (tolerance : Option Nat) (threshold : Nat)
  /-- DEFINE_LINE (R8). -/
  | defineLine (h : ReqHdr) (line product trunk station index volume : Nat) (auto : EnumField Bool) (content : EnumField Content) (oos : EnumField Bool)
  /-- LOAD_SOURCE (R4). -/
  | loadSource (h : ReqHdr) (position product nominal : Nat) (fillRef : Word32)
  /-- UNLOAD_SOURCE (R5). -/
  | unloadSource (h : ReqHdr) (position : Nat)
  /-- APPEND_CHAIN (R11). -/
  | appendChain (h : ReqHdr) (line position : Nat)
  /-- REMOVE_FROM_CHAIN (R12). -/
  | removeFromChain (h : ReqHdr) (line position : Nat)
  /-- FORCE_CHANGEOVER (R21). -/
  | forceChangeover (h : ReqHdr) (line : Nat)
  /-- SET_LINE_SERVICE (R22). -/
  | setLineService (h : ReqHdr) (line : Nat) (direction : EnumField Direction)
  /-- ISSUE_TICKET (R29). -/
  | issueTicket (h : ReqHdr) (station product portion : Nat) (validity : Option Nat) (reference : Word32)
  /-- CANCEL_TICKET (R38). -/
  | cancelTicket (h : ReqHdr) (ticket : Nat) (reference : Word32)
  /-- SET_TOPUP_WINDOW (R30). -/
  | setTopupWindow (h : ReqHdr) (window : Nat)
  /-- DEFINE_TAP (R44). -/
  | defineTap (h : ReqHdr) (tap station index : Nat) (line : Option Nat) (mode : EnumField TapMode) (factor limit : Option Nat)
  /-- SET_TAP (R45). -/
  | setTap (h : ReqHdr) (tap : Nat) (mode : EnumField TapMode) (factor limit : Option Nat)
  /-- CLOSE_TAP (R46). -/
  | closeTap (h : ReqHdr) (tap : Nat)
  /-- OPEN_TAP (R47). -/
  | openTap (h : ReqHdr) (tap : Nat)
  /-- START_CALIBRATION (R76). -/
  | startCalibration (h : ReqHdr) (tap nominal : Nat)
  /-- CALIBRATION_RESULT (R80). -/
  | calibrationResult (h : ReqHdr) (tap measured : Nat)
  /-- DEFINE_STATION (R86). -/
  | defineStation (h : ReqHdr) (address : Nat) (kind : EnumField StationType) (taps block : Nat)
  /-- RESCAN_STATION (R99). -/
  | rescanStation (h : ReqHdr) (address : Nat)
  /-- TRACE_STATION (R100). -/
  | traceStation (h : ReqHdr) (address : Nat) (on : EnumField Bool)
  /-- SCAN_BUS (R103). -/
  | scanBus (h : ReqHdr)
  /-- SET_COOLING (R108). Temperatures in tenths of a degree. -/
  | setCooling (h : ReqHdr) (setpoint : Option Int) (threshold : Option Nat) (offset : Option Int) (choice : EnumField MinTimes) (minOn minOff : Option Nat)
  /-- DEFINE_TRUNK (R121). -/
  | defineTrunk (h : ReqHdr) (trunk : Nat) (use : EnumField Bool) (warm hot : Option Int)
  /-- CLEAR_STAGE_TRIP (R117). -/
  | clearStageTrip (h : ReqHdr) (stage : Nat)
  /-- CLEAR_PUMP_FAULT (R125). -/
  | clearPumpFault (h : ReqHdr) (trunk : Nat)
  /-- SURGE_HINT (R119). -/
  | surgeHint (h : ReqHdr) (duration : Nat)
  /-- DEFINE_PROGRAMME (R130); no list makes the entry undefined. -/
  | defineProgramme (h : ReqHdr) (programme : Nat) (steps : Option (List StepField))
  /-- REQUEST_CLEAN (R134). -/
  | requestClean (h : ReqHdr) (trunk : Nat) (lines : List Nat) (programme : Nat)
  /-- ABORT_CLEAN (R152). -/
  | abortClean (h : ReqHdr) (job : Nat)
  /-- CLEAR_CIRCUIT_FAULT (R153). -/
  | clearCircuitFault (h : ReqHdr) (circuit : Nat)
  /-- READ_JOURNAL (R162); no start seq is CONTINUE (log 70). -/
  | readJournal (h : ReqHdr) (start : Option Word32) (count : Nat)
  /-- RELEASE_JOURNAL (R164). -/
  | releaseJournal (h : ReqHdr) (seq : Word32)
  /-- SET_JOURNAL_MARK (R161). -/
  | setJournalMark (h : ReqHdr) (mark : Nat)
  /-- CLOSE_PERIOD (R169). -/
  | closePeriod (h : ReqHdr)
  /-- GO_LIVE (R175, R176). -/
  | goLive (h : ReqHdr)
  /-- SET_CLOCK (R174). -/
  | setClock (h : ReqHdr) (value : Word32)
  /-- STOP (R180). -/
  | stop (h : ReqHdr)
  /-- RESUME (R182). -/
  | resume (h : ReqHdr)
  /-- IDENTIFY (R190). -/
  | identify (h : ReqHdr)
  /-- STATUS (R190). -/
  | status (h : ReqHdr)
  /-- SET_LINK (R189); the rate in bit/s. -/
  | setLink (h : ReqHdr) (rate : Nat)
  /-- READ_TABLE (R191). -/
  | readTable (h : ReqHdr) (table : EnumField TableName) (first count : Nat) (step : EnumField ReadStep)
  /-- READ_MORE (R191). -/
  | readMore (h : ReqHdr)
  /-- FETCH_NOTICES (R193). -/
  | fetchNotices (h : ReqHdr) (count : Nat)
  /-- UNKNOWN_KIND (R188): an accepted request whose kind byte names no request. -/
  | unknownKind (h : ReqHdr) (kind : Byte)
  /-- FRAME_DISCARDED (R185): the characters the receiver samples, up to the fault. -/
  | frameDiscarded (characters : List RxChar)
  /-- GAP_ERROR (R185). -/
  | gapError
  /-- OVERRUN (R187): a frame accepted while the reply queue is full. -/
  | overrun (h : ReqHdr)
  /-- REPLY_SENT (R187). -/
  | replySent
  /-- LINK_RESET (R186). -/
  | linkReset
  /-- DEVICE_RESET (R178), with the level of CELLAR_STOP_N as RESET_N is released. -/
  | deviceReset (pinLow : Bool)
  /-- CELLAR_STOP_PIN_FALL (R179). -/
  | cellarStopPinFall
  /-- CELLAR_STOP_PIN_RISE (R179). -/
  | cellarStopPinRise
  /-- PART_CLOCK_ADVANCE (R173). -/
  | partClockAdvance
  /-- STATION_VISIT (R89). -/
  | stationVisit
  /-- ATTENTION_CALL (R90), with the addresses driven in the contention slot. -/
  | attentionCall (contenders : List (BitVec 5))
  /-- CLOSE_ALL (R102). -/
  | closeAll
  /-- STATUS_ACCEPTED (R97). -/
  | statusAccepted (r : StatusReply)
  /-- DESCRIPTOR_ACCEPTED (R95), with the address of the reply. -/
  | descriptorAccepted (address : Nat) (d : Descriptor)
  /-- REPLY_MISS (R84): what came in place of a reply. -/
  | replyMiss (came : MissedReply)
  /-- SCAN_END (R103). -/
  | scanEnd
  /-- CHANGEOVER_TIMEOUT (R19). -/
  | changeoverTimeout (line : Nat)
  /-- RETRIP_WINDOW_CLOSE (R18). -/
  | retripWindowClose (line : Nat)
  /-- VALIDITY_TIMER_EXPIRY (R36). -/
  | validityTimerExpiry (ticket : Nat)
  /-- TOPUP_TIMER_EXPIRY (R37). -/
  | topupTimerExpiry (ticket : Nat)
  /-- NO_TICKET_DISPLAY_END (R49). -/
  | noTicketDisplayEnd (tap : Nat)
  /-- POUR_LIMIT_EXPIRY (R56). -/
  | pourLimitExpiry (tap : Nat)
  /-- ENDING_TIMER_EXPIRY (R58). -/
  | endingTimerExpiry (tap : Nat)
  /-- LATE_COUNT_EXPIRY (R73). -/
  | lateCountExpiry (tap : Nat)
  /-- ARM_TIMER_EXPIRY (R77). -/
  | armTimerExpiry (tap : Nat)
  /-- RESULT_TIMER_EXPIRY (R79). -/
  | resultTimerExpiry (tap : Nat)
  /-- DEGRADE_TIMER_EXPIRY (R110). -/
  | degradeTimerExpiry
  /-- POUR_LOAD_AGE_OUT (R118). -/
  | pourLoadAgeOut
  /-- SURGE_HINT_END (R119). -/
  | surgeHintEnd
  /-- PUMP_TIMER_EXPIRY (R124). -/
  | pumpTimerExpiry (trunk : Nat)
  /-- GRACE_TIMER_EXPIRY (R126). -/
  | graceTimerExpiry
  /-- DRAINING_LIMIT_EXPIRY (R137). -/
  | drainingLimitExpiry (job : Nat)
  /-- CAP_TIMER_EXPIRY (R138). -/
  | capTimerExpiry (job : Nat)
  /-- PUSH_LIMIT_EXPIRY (R141). -/
  | pushLimitExpiry (job : Nat)
  /-- STEP_DURATION_END (R142). -/
  | stepDurationEnd (job : Nat)
  /-- PULSE_PHASE_SWITCH (R142). -/
  | pulsePhaseSwitch (job : Nat)
  /-- PROVE_LIMIT_EXPIRY (R143). -/
  | proveLimitExpiry (job : Nat)
  /-- PAUSE_TIMER_EXPIRY (R144). -/
  | pauseTimerExpiry (job : Nat)
  /-- RETURN_TIMER_EXPIRY (R147). -/
  | returnTimerExpiry (job : Nat)
  /-- FLUSH_LIMIT_EXPIRY (R151). -/
  | flushLimitExpiry (job : Nat)
  /-- RXD_RETURNED_HIGH (R186). -/
  | rxdReturnedHigh
  deriving DecidableEq, Repr

end Sys2Proof
end

