-- ==== Sys2Proof/Decode.lean ====
section
/-!
DEFINITION. Words of opcode_table.json. No row of the table gives bits, so no word spells a command.
-/

namespace Sys2Proof

/-- The command a table word spells: none, since no row of opcode_table.json gives bits. -/
def decodeTableWord (_nbits _w : Nat) : Option Instr := none

end Sys2Proof
end

