-- ==== Sys2Proof/Config.lean ====
section
/-!
DEFINITION. What the part fixes (capacities of Table 0-2, timings of the owning rules) and the free values: numbers the
spec does not give, each an opaque constant, so that nothing proved of the model rests on a choice.
-/

namespace Sys2Proof.Config

/-- Notice queue (R192). -/
def noticeCapacity : Nat := 64
/-- Reply queue (R187). -/
def replyCapacity : Nat := 2
/-- Journal ring (R154). -/
def journalCapacity : Nat := 2048
/-- Places kept back from pours (R157). -/
def nonPourReserve : Nat := 32
/-- Tickets in one station queue (R26). -/
def stationQueueCapacity : Nat := 8
/-- Jobs in the job queue (R133). -/
def jobCapacity : Nat := 8
/-- Source positions in one chain (R11). -/
def chainCapacity : Nat := 4
/-- Pairs in the pour-load window (R118). -/
def windowCapacity : Nat := 512
/-- Counts of Table 5-3 and of R185, and the gap count of R154, stay at this value. -/
def countMax : Nat := 65535
/-- Largest value of the 32-bit volumes and counts (R71, R165, R167). -/
def max32 : Nat := 4294967295
/-- Largest value of the lifetime volumes (Table 8-2). -/
def max48 : Nat := 281474976710655

/-- Prime timeout of a changeover attempt, ms (R19). -/
def primeTimeout : Nat := 90000
/-- Re-trip window, ms (R18). -/
def retripWindow : Nat := 5000
/-- ENDING wait, ms (R58). -/
def endingWait : Nat := 2000
/-- No-ticket display, ms (R49). -/
def noTicketDisplay : Nat := 3000
/-- Stall time, ms (R70). -/
def stallTime : Nat := 1500
/-- Life of a late-count record, ms (R73). -/
def lateLife : Nat := 60000
/-- Arm timer, s (R76). -/
def armSeconds : Nat := 120
/-- Result timer, s (R78). -/
def resultSeconds : Nat := 600
/-- Degrade timer, ms (R110). -/
def degradeTime : Nat := 300000
/-- Step delay between stage starts, ms (R112). -/
def stepDelay : Nat := 60000
/-- Age at which a pour-load pair leaves the window, ms (R118). -/
def windowAge : Nat := 60000
/-- Pump timer, ms (R124). -/
def pumpTime : Nat := 10000
/-- Grace timer, ms (R126). -/
def graceTime : Nat := 60000
/-- Draining limit, ms (R136). -/
def drainingLimit : Nat := 60000
/-- Cap timer, ms (R138). -/
def capTime : Nat := 600000
/-- PUSH limit, ms (R140). -/
def pushLimit : Nat := 1800000
/-- Phase of a PULSE step, ms (R142). -/
def pulsePhase : Nat := 10000
/-- Least distance of two comparator samples, ms (R143). -/
def sampleDistance : Nat := 1000
/-- Pause timer, ms (R144). -/
def pauseTime : Nat := 300000
/-- Return timer, ms (R145). -/
def returnTime : Nat := 300000
/-- Flush limit, ms (R150). -/
def flushLimit : Nat := 600000

/-- Band of the bath control, tenths of a degree (Table 6-1). -/
def band : Int := 5
/-- Hysteresis of the trunk states, tenths of a degree (R122). -/
def hysteresis : Int := 5

/-- Free value: the detail byte of a refusal whose rule names no field of the request (R188; log 7). -/
opaque noFieldDetail : Nat
/-- Free value: the detail byte "naming the pool" (R29; log 7). -/
opaque poolDetail : Nat
/-- Free value: the detail byte "naming the queue" (R29; log 7). -/
opaque queueDetail : Nat
/-- Free value: the detail byte "naming the step and field" of a programme (R130; log 7). -/
opaque stepFieldDetail : Nat → Nat → Nat
/-- Free value: the second detail of a STATION_STATE notice for ACTIVE, which R87 does not give (log 8). -/
opaque activeDetail : Nat
/-- Free value: the number of the outcome PARTIAL in a POUR entry, which no list of the spec numbers (log 9). -/
opaque partialOutcomeNumber : Nat
/-- Free value: what a field of a meter factor holds when the factor computed by R80 is above the two bytes of Table 11-1
(log 37). -/
opaque wideFactor : Nat → Nat

end Sys2Proof.Config
end

