-- ==== Sys2Proof/Machine/State.lean ====
section
/-!
DEFINITION. The state of the D96, block by block (Table 0-1), and the machine right after device reset. Plain data: every
table is a vector or a list of records. A field an entry shows under two names is stored once, at its owner.
-/

namespace Sys2Proof.Machine

/-! ### Results and notices (Host Link) -/

/-- Results of a request (Table 10-2). -/
inductive Result where
  | ok | refusedState | badParam | notFound | inUse | full | notLive | notConfig | unknownKind | badLength
  deriving DecidableEq, Repr

/-- A reply in the reply queue (R187). A SCAN_BUS reply stands there unmade until the scan ends (R103); a SET_LINK reply
carries the rate that holds once it has been sent (R189). -/
structure Reply where
  kind : Byte
  tag : Byte
  made : Bool
  result : Result
  detail : Nat
  data : List Byte
  newRate : Option Rate
  deriving DecidableEq, Repr

/-- The transmitter: idle, with TXD held high, or sending the bytes of a reply frame (R184, R187). -/
inductive Transmitter where
  | idle
  | sending (frame : List Byte)
  deriving DecidableEq, Repr

/-- Notice kinds, in the order of R195. -/
inductive NoticeKind where
  | lineState | sourceState | changeoverResult | ticketExpired | tapState | calibrationReady | trunkState | coolingState
  | stageTrip | jobState | jobStep | circuitFault | stationState | journalLevel | stopState | yieldDrift | inputTrace
  deriving DecidableEq, Repr

/-- A notice (R192). -/
structure Notice where
  kind : NoticeKind
  subject : Nat
  first : Nat
  second : Nat
  time : Word32
  deriving DecidableEq, Repr

/-- The host link receiver: its phase, with the bytes of the frame it holds in part (R185). -/
inductive Receiver where
  | hunting
  | length
  | body (len : RxByte) (got : List RxByte)
  | crc (len : RxByte) (got : List RxByte) (low : Option RxByte)
  deriving DecidableEq, Repr

/-- Link error counts (R185). -/
structure LinkCounts where
  accepted : Nat
  noise : Nat
  lengthErrors : Nat
  gapErrors : Nat
  framingErrors : Nat
  crcErrors : Nat
  overruns : Nat
  breaks : Nat
  deriving DecidableEq, Repr

/-- The table cursor (R191). -/
structure TableCursor where
  table : TableName
  next : Nat
  remaining : Nat
  step : ReadStep
  deriving DecidableEq, Repr

/-- Host Link: what HL owns (Table 0-1), with the level of ATTN and what the transmitter does on TXD. -/
structure Hl where
  rate : Rate
  receiver : Receiver
  rxdLow : Bool
  counts : LinkCounts
  replies : List Reply
  transmitter : Transmitter
  notices : List Notice
  overflow : Bool
  attn : Bool
  cursor : Option TableCursor
  deriving DecidableEq, Repr

/-! ### Mode and Stop Control -/

/-- Operating mode (R172). -/
inductive Mode where
  | config | live
  deriving DecidableEq, Repr

/-- Stop state (R178). -/
inductive StopState where
  | clear | active | releasable
  deriving DecidableEq, Repr

/-- Stop source (R178). -/
inductive StopSource where
  | pin | request
  deriving DecidableEq, Repr

/-- Mode and Stop Control: what MSC owns, with the pin STOP_ACTIVE and the time base (R172 to R178, R183). -/
structure Msc where
  mode : Mode
  stop : StopState
  source : Option StopSource
  pinLow : Bool
  stopActive : Bool
  partClock : Word32
  timeBase : Nat
  clockSince : Nat
  lastOnset : Option Word32
  liveAt : Option Word32
  deriving DecidableEq, Repr

/-! ### Output images -/

/-- Valve command of a tap (§3.4). -/
inductive ValveCmd where
  | closed
  | openTo (target : Count24)
  | openHold
  deriving DecidableEq, Repr

/-- Lamp of a tap (Table 3-1). -/
inductive Lamp where
  | off | ready | pouring | held | noTicket | cap
  deriving DecidableEq, Repr

/-- Route of a cellar outlet (R10). -/
inductive Route where
  | closed | supply | clean
  deriving DecidableEq, Repr

/-- The three fields LM keeps for a line outlet (R10). -/
structure Outlet where
  coupler : Option Nat
  route : Route
  vent : Bool
  deriving DecidableEq, Repr

/-- Medium output of a circuit (Table 7-2); no medium is NONE. -/
abbrev MediumOut := Option Medium

/-- The five outputs of a cleaning circuit (Table 7-2). -/
structure CircuitOut where
  pump : Bool
  medium : MediumOut
  drain : Bool
  threshold : Nat
  trunk : Option Nat
  deriving DecidableEq, Repr

/-- What a POLL carries, by station type (Table 11-6). -/
inductive OutImage where
  | tap (taps : List (ValveCmd × Lamp))
  | cellar (outlets : List Outlet)
  | cooling (stages pumps : List Bool) (remote : Bool)
  | cleaning (circuits : List CircuitOut)
  deriving DecidableEq, Repr

/-- Frames the D96 puts on the station bus (Table 5-2). -/
inductive BusFrame where
  | describe (address : Nat)
  | poll (address : Nat) (image : OutImage)
  | attention (call : Nat)
  | closeAll
  deriving DecidableEq, Repr

/-! ### Station Bus Controller -/

/-- Station states (Table 5-4). -/
inductive StationState where
  | absent | joining | active | lost | mismatch
  deriving DecidableEq, Repr

/-- The state a JOINING station returns to (Table 5-3). -/
inductive JoinedFrom where
  | absent | lost
  deriving DecidableEq, Repr

/-- Causes of a loss report (R87). -/
inductive LossCause where
  | misses | restart | redefined
  deriving DecidableEq, Repr

/-- Station entry (Table 5-3). An entry with no type is an unused address. -/
structure Station where
  kind : Option StationType
  taps : Nat
  block : Nat
  state : StationState
  joinedFrom : Option JoinedFrom
  descriptorAccepted : Bool
  reported : Option Descriptor
  dueNext : Bool
  misses : Nat
  totalMisses : Nat
  noise : Nat
  restarts : Nat
  restartSinceLoss : Bool
  inputs : Option InputImage
  initialPending : Bool
  trace : Bool
  deriving DecidableEq, Repr

/-- An unused address (R85). -/
def Station.unused : Station where
  kind := none
  taps := 0
  block := 0
  state := .absent
  joinedFrom := none
  descriptorAccepted := false
  reported := none
  dueNext := false
  misses := 0
  totalMisses := 0
  noise := 0
  restarts := 0
  restartSinceLoss := false
  inputs := none
  initialPending := false
  trace := false

/-- Where SBC stands in its round (R88): the next address to visit, the attention calls made, or the next address of a scan. -/
inductive BusPhase where
  | visit (next : Nat)
  | calls (made : Nat)
  | scanning (next : Nat)
  deriving DecidableEq, Repr

/-- What the addressed frame that awaits its reply is for: a DESCRIBE of a join, a POLL, a DESCRIBE that only clears an
attention request (R91), or a DESCRIBE of a scan (R103). -/
inductive Purpose where
  | describe | poll | clearAttention | scan
  deriving DecidableEq, Repr

/-- An exchange under way (R83). -/
structure Exchange where
  address : Nat
  purpose : Purpose
  deriving DecidableEq, Repr

/-- Station Bus Controller: what SBC owns. `scan` holds, while a SCAN_BUS is under way, the descriptors recorded. -/
structure Sbc where
  stations : Vector Station 30
  round : Nat
  phase : BusPhase
  exchange : Option Exchange
  closeAllDue : Bool
  owedPoll : Option Nat
  scan : Option (List (Nat × Descriptor))
  lastFrame : Option BusFrame
  deriving DecidableEq, Repr

/-! ### Line Manager -/

/-- Product entry (Table 1-1). -/
structure Product where
  code : Nat
  name : List Byte
  tolerance : Nat
  threshold : Nat
  deriving DecidableEq, Repr

/-- Source position states (Table 1-3). -/
inductive SourceState where
  | vacant | loaded | onLine | spent | fault
  deriving DecidableEq, Repr

/-- The keg recorded on a position (Table 1-2), with the time base of its load (R4). -/
structure Keg where
  product : Nat
  nominal : Nat
  dispensed : Nat
  fillRef : Word32
  loadedAt : Word32
  loadBase : Nat
  deriving DecidableEq, Repr

/-- Source position entry (Table 1-2). `removed`: the keg was taken away while its close was pending (R13). `pours`: the
pours in progress that name the position (R6). -/
structure Source where
  bound : Option (Nat × Nat)
  state : SourceState
  keg : Option Keg
  line : Option Nat
  closePending : Bool
  removed : Bool
  pours : Nat
  deriving DecidableEq, Repr

/-- An unbound position (R3). -/
def Source.unbound : Source where
  bound := none
  state := .vacant
  keg := none
  line := none
  closePending := false
  removed := false
  pours := 0

/-- Line states (Table 1-5). -/
inductive LineState where
  | serving | draining | changeover | dry | cleaning | locked | outOfService
  deriving DecidableEq, Repr

/-- Changeover record (§1.6); times on the time base. -/
structure Changeover where
  position : Nat
  fromPos : Option Nat
  start : Nat
  primed : Option Nat
  deriving DecidableEq, Repr

/-- Line entry (Table 1-4), with its outlet outputs (R10). -/
structure Line where
  product : Nat
  trunk : Nat
  station : Nat
  index : Nat
  volume : Nat
  auto : Bool
  state : LineState
  content : Content
  unsupervised : Bool
  job : Option Nat
  chain : List Nat
  change : Option Changeover
  declaredOut : Bool
  outlet : Outlet
  deriving DecidableEq, Repr

/-- Results of a changeover attempt (Table 11-8). -/
inductive ChangeResult where
  | primed | failedTimeout | failedRetrip | interrupted
  deriving DecidableEq, Repr

/-- Line Manager: what LM owns. -/
structure Lm where
  products : Vector (Option Product) 32
  sources : Vector Source 64
  lines : Vector (Option Line) 48
  deriving DecidableEq, Repr

/-! ### Ticket Manager -/

/-- What a CLAIMED ticket was before its claim (Table 2-1). -/
inductive ClaimedFrom where
  | queued | part
  deriving DecidableEq, Repr

/-- Ticket states other than FREE (Table 2-2); a CLAIMED ticket holds claimed-from and the tap. -/
inductive TicketState where
  | queued
  | claimed (was : ClaimedFrom) (tap : Nat)
  | part
  deriving DecidableEq, Repr

/-- A timer of a ticket: off, running to a time of the time base, or run out (R31, R33). -/
inductive Timer where
  | off
  | running (deadline : Nat)
  | out
  deriving DecidableEq, Repr

/-- Ticket record that is not FREE (Table 2-1). -/
structure Ticket where
  state : TicketState
  reference : Word32
  station : Nat
  product : Nat
  portion : Nat
  remaining : Nat
  issuedAt : Word32
  expiresAt : Word32
  topupDeadline : Option Word32
  validity : Timer
  topup : Timer
  deriving DecidableEq, Repr

/-- Outcomes of a ticket at a close (R27), and PARTIAL at a pour's end (R34). -/
inductive Outcome where
  | poured | short | voidExpired | voidCancelled | part
  deriving DecidableEq, Repr

/-- Ticket Manager: what TKM owns. A FREE record is `none` (R25). -/
structure Tkm where
  tickets : Vector (Option Ticket) 160
  queues : Vector (List Nat) 30
  window : Nat
  deriving DecidableEq, Repr

/-! ### Pour Engine -/

/-- Tap states, in the order of Table 3-2. -/
inductive TapState where
  | unassigned | cleaning | off | offline | pouring | ending | held | idle
  deriving DecidableEq, Repr

/-- The hold-reason set (R43). -/
structure Holds where
  line : Bool
  trunkHot : Bool
  stop : Bool
  journal : Bool
  unsupervised : Bool
  deriving DecidableEq, Repr

/-- The empty hold-reason set. -/
def Holds.none : Holds := ⟨false, false, false, false, false⟩

/-- Pour kinds (Table 3-4). -/
inductive PourKind where
  | normal | topup | calibration
  deriving DecidableEq, Repr

/-- End causes, in the order of Table 3-5. -/
inductive EndCause where
  | target | holdExpired | stopped | release | limit | stall | fob | kegOut | cancelled | cleanPreempt | stop | stationLost
  deriving DecidableEq, Repr

/-- Temperature classes (R62). -/
inductive TempClass where
  | cold | warm | hot
  deriving DecidableEq, Repr

/-- Categories of a product's volumes (Table 8-2). -/
inductive Category where
  | ticketed | free | purge | calibration
  deriving DecidableEq, Repr

/-- Pour in progress (Table 3-4), with the mode and factor in force at its start (R45), the end of its limit timer (R56) and
of its ENDING wait (R58). -/
structure Pour where
  kind : PourKind
  startClock : Word32
  startBase : Nat
  base : Count24
  target : Option Count24
  targetMl : Option Nat
  ticket : Option Nat
  source : Option Nat
  worst : TempClass
  lastChange : Nat
  cause : Option EndCause
  holdExpired : Bool
  mode : TapMode
  factor : Nat
  limitEnd : Option Nat
  endingEnd : Option Nat
  deriving DecidableEq, Repr

/-- Calibration sub-record (Table 4-3); absent is `none` in the tap entry. -/
inductive Calibration where
  | armed (nominal : Nat) (until_ : Word32) (timer : Nat)
  | awaiting (pulses ml oldFactor nominal : Nat) (deadline : Word32) (timer : Nat)
  deriving DecidableEq, Repr

/-- Staged settings (R45). -/
structure Staged where
  mode : Option TapMode
  factor : Option Nat
  limit : Option Nat
  deriving DecidableEq, Repr

/-- No staged settings. -/
def Staged.none : Staged := ⟨Option.none, Option.none, Option.none⟩

/-- Late-count record (R73). -/
structure LateCount where
  seq : Word32
  base : Count24
  atLoss : Count24
  ml : Nat
  factor : Nat
  source : Option Nat
  startBase : Nat
  category : Category
  product : Option Nat
  lossBase : Nat
  deriving DecidableEq, Repr

/-- Tap entry (Table 3-1), with what PE keeps beside it. -/
structure Tap where
  station : Option (Nat × Nat)
  line : Option Nat
  mode : TapMode
  state : TapState
  holds : Holds
  off : Bool
  factor : Nat
  limit : Nat
  handle : Option Bool
  capImage : Option Bool
  valveImage : Option Bool
  count : Option Count24
  lamp : Lamp
  calibration : Option Calibration
  creep : Nat
  residue : Nat
  staged : Staged
  pour : Option Pour
  cleaning : Bool
  released : Bool
  valve : ValveCmd
  noTicket : Option Nat
  late : Option LateCount
  deriving DecidableEq, Repr

/-- A tap after device reset (R41). -/
def Tap.fresh : Tap where
  station := none
  line := none
  mode := .ticket
  state := .unassigned
  holds := Holds.none
  off := false
  factor := 10000
  limit := 20
  handle := none
  capImage := none
  valveImage := none
  count := none
  lamp := .off
  calibration := none
  creep := 0
  residue := 0
  staged := Staged.none
  pour := none
  cleaning := false
  released := false
  valve := .closed
  noTicket := none
  late := none

/-- Trunk states (Table 6-3). -/
inductive TrunkState where
  | unused | normal | warm | hot | probeFault | unknown
  deriving DecidableEq, Repr

/-- PE's view of a line (R41). -/
structure LineView where
  state : LineState
  trunk : Nat
  unsupervised : Bool
  deriving DecidableEq, Repr

/-- Pour Engine: what PE owns. -/
structure Pe where
  taps : Vector Tap 96
  lineViews : Vector (Option LineView) 48
  trunkViews : Vector TrunkState 8
  flow : Vector Bool 48
  marks : Vector Marks 30
  deriving DecidableEq, Repr

/-! ### Cooling Controller -/

/-- Cooling states (Table 6-1). -/
inductive CoolingState where
  | off | running | degraded | unsupervised
  deriving DecidableEq, Repr

/-- Causes of DEGRADED (Table 6-1). -/
inductive DegradeCause where
  | bathHigh | allTripped
  deriving DecidableEq, Repr

/-- Causes in a COOLING_STATE notice (Table 11-8). -/
inductive CoolingCause where
  | start | joined | lost | bathHigh | allTripped | recovered
  deriving DecidableEq, Repr

/-- Causes in a TRUNK_STATE notice (Table 11-8). -/
inductive TrunkCause where
  | temperature | probe | graceEnd | defined | pumpFault
  deriving DecidableEq, Repr

/-- Stage entry (R112). -/
structure Stage where
  command : Bool
  lastChange : Option Nat
  running : Option Bool
  tripped : Bool
  deriving DecidableEq, Repr

/-- Trunk entry (Table 6-3). Temperatures in tenths of a degree. -/
structure Trunk where
  inUse : Bool
  warm : Int
  hot : Int
  temperature : Option Int
  state : TrunkState
  pump : Bool
  feedback : Option Bool
  pumpFault : Bool
  pumpEnd : Option Nat
  circuit : Option Nat
  deriving DecidableEq, Repr

/-- A trunk after device reset (R121). -/
def Trunk.fresh : Trunk where
  inUse := false
  warm := 40
  hot := 70
  temperature := none
  state := .unused
  pump := false
  feedback := none
  pumpFault := false
  pumpEnd := none
  circuit := none

/-- Cooling Controller: the cooling record (Table 6-1), the mode output, the stages, their order list, the trunks and the
pour-load window. Timers hold the time at which they run out. -/
structure Cc where
  state : CoolingState
  setpoint : Int
  programmed : Option (Nat × Nat)
  threshold : Nat
  offset : Int
  lastBath : Option Int
  probeFault : Bool
  degradeEnd : Option Nat
  cause : Option DegradeCause
  hintEnd : Option Nat
  surge : Bool
  effective : Int
  lastStart : Option Nat
  graceEnd : Option Nat
  gate : Bool
  joinedOnce : Bool
  remote : Bool
  stages : Vector Stage 3
  order : List Nat
  trunks : Vector Trunk 8
  window : List (Nat × Nat)
  deriving DecidableEq, Repr

/-! ### Cleaning Sequencer -/

/-- A checked programme step (Table 7-1). `onFail`: no count is ABORT, a count is REPEAT. -/
inductive Step where
  | push (medium : Medium) (factor : Nat)
  | recirculate (medium : Medium) (duration : Nat)
  | soak (duration : Nat)
  | pulse (medium : Medium) (duration : Nat)
  | prove (medium : Medium) (threshold limit : Nat) (onFail : Option Nat)
  deriving DecidableEq, Repr

/-- A defined programme (R129). -/
structure Programme where
  steps : List Step
  valid : Bool
  deriving DecidableEq, Repr

/-- Circuit states (Table 7-2). -/
inductive CircuitState where
  | free | busy | fault
  deriving DecidableEq, Repr

/-- Fault causes of a circuit (Table 7-2). -/
inductive FaultCause where
  | stop | stationLost | tankLow | cap | timeout
  deriving DecidableEq, Repr

/-- Circuit entry (Table 7-2). -/
structure Circuit where
  state : CircuitState
  job : Option Nat
  out : CircuitOut
  above : Option Bool
  meter : Option Count24
  running : Option Bool
  faultCause : Option FaultCause
  deriving DecidableEq, Repr

/-- Default outputs of a circuit (Table 7-2). -/
def CircuitOut.idle : CircuitOut := ⟨false, none, true, 100, none⟩

/-- A circuit after device reset (R131). -/
def Circuit.fresh : Circuit := ⟨.free, none, CircuitOut.idle, none, none, none, none⟩

/-- Job states (Table 7-4). -/
inductive JobState where
  | queued | draining | capCheck | running | paused | beerReturn | flushing | complete | aborted
  deriving DecidableEq, Repr

/-- Abort causes (Table 7-3). -/
inductive AbortCause where
  | host | stop | stationLost | tankLow | capTimeout | pauseTimeout | proofFailed | pushTimeout
  deriving DecidableEq, Repr

/-- What a job's running timer measures (R136 to R150). -/
inductive JobTimer where
  | draining | cap | push | duration | prove | beerReturn | flush | pause
  deriving DecidableEq, Repr

/-- Job record (Table 7-3). Beside the table: the lines still in the job (R145), the cap set (R138), the running timer and its
end, the PULSE phase and its end, what a pause keeps of both (R144), the time of the last sample or start and the consecutive
count (R143). -/
structure Job where
  id : Nat
  trunk : Nat
  lines : List Nat
  programme : Nat
  state : JobState
  pausedFrom : Option JobState
  step : Option Nat
  repeats : Nat
  circuit : Option Nat
  requestedAt : Word32
  chemical : Bool
  proof : Bool
  returnLine : Option Nat
  base : Option Count24
  trunkState : TrunkState
  abortCause : Option AbortCause
  flushFailed : Bool
  remaining : List Nat
  capSet : List Nat
  timer : Option (JobTimer × Nat)
  phase : Option (Bool × Nat)
  kept : Option (JobTimer × Nat)
  keptPhase : Option (Bool × Nat)
  sampled : Nat
  consecutive : Nat
  deriving DecidableEq, Repr

/-- Cleaning Sequencer: what CS owns. -/
structure Cs where
  programmes : Vector (Option Programme) 6
  circuits : Vector Circuit 2
  jobs : List Job
  nextJob : Nat
  hold : Bool
  tanks : Option (Vector Bool 3)
  deriving DecidableEq, Repr

/-! ### Accounting Unit -/

/-- Flush results of a CLEAN_RUN entry (R148). -/
inductive FlushResult where
  | failed | performed | notRun
  deriving DecidableEq, Repr

/-- A product record of a PERIOD_CLOSE entry (R169). -/
structure PeriodRecord where
  code : Nat
  ticketed : Nat
  free : Nat
  purge : Nat
  calibration : Nat
  pours : Nat
  shorts : Nat
  deriving DecidableEq, Repr

/-- The part of a journal entry that belongs to its kind (Tables 8-1 and 11-4). An AMEND has the fields of R74 and Table 11-4, without the
product code of R156 (DESIGN CHOICE, log 80). -/
inductive EntryBody where
  | pour (tap line source code : Option Nat) (kind : PourKind) (ml duration : Nat) (cause : EndCause) (temp : TempClass) (incomplete holdExpired : Bool) (ticket : Option (Word32 × Nat × Outcome))
  | amend (seq : Word32) (tap ml : Nat)
  | ticketClose (reference : Word32) (station : Nat) (code : Option Nat) (portion : Nat) (outcome : Outcome) (remaining : Nat)
  | kegClose (position : Nat) (fillRef : Word32) (code : Option Nat) (nominal dispensed yield : Nat) (early : Bool)
  | changeover (line : Nat) (fromPos toPos : Option Nat) (result : ChangeResult)
  | purge (line : Nat) (source code : Option Nat) (ml : Nat)
  | cleanRun (job trunk programme : Nat) (cause : Option AbortCause) (flush : FlushResult) (contents : List (Nat × Option Content))
  | calibration (tap pulses ml oldFactor : Nat)
  | calResult (tap measured newFactor : Nat) (accepted : Bool)
  | leak (tap ml : Nat)
  | periodClose (period : Word32) (records : List PeriodRecord)
  | stop (onset : Bool) (source : StopSource)
  | start (products tapStations cellarStations coolingStations cleaningStations lines taps trunks programmes loaded : Nat)
  deriving DecidableEq, Repr

/-- A held journal entry (§8.2). -/
structure Entry where
  seq : Word32
  time : Word32
  gap : Option Nat
  body : EntryBody
  deriving DecidableEq, Repr

/-- One part of a product's totals (Table 8-2). -/
structure Totals where
  ticketed : Nat
  free : Nat
  purge : Nat
  calibration : Nat
  pours : Nat
  shorts : Nat
  deriving DecidableEq, Repr

/-- Totals of 0. -/
def Totals.zero : Totals := ⟨0, 0, 0, 0, 0, 0⟩

/-- Accounting Unit: what AU owns. The held entries stand oldest first. -/
structure Au where
  journal : List Entry
  reserved : Nat
  nextSeq : Word32
  gap : Nat
  refused : Bool
  mark : Nat
  armed : Bool
  cursorSeq : Word32
  cursorOffset : Nat
  totals : Vector (Totals × Totals) 32
  tapTotals : Vector (Nat × Nat) 96
  issued : Nat
  poured : Nat
  shorted : Nat
  voided : Nat
  period : Word32
  openedAt : Word32
  deriving DecidableEq, Repr

/-! ### The machine -/

/-- Every block but the Host Link, and the notices raised by the command at hand, which HL takes at its end. -/
structure Plant where
  msc : Msc
  sbc : Sbc
  lm : Lm
  tkm : Tkm
  pe : Pe
  cc : Cc
  cs : Cs
  au : Au
  raised : List Notice
  deriving DecidableEq, Repr

/-- The whole machine: the Host Link, the other blocks, and the queue of commands that wait, first in, first out. -/
structure State where
  hl : Hl
  plant : Plant
  pending : List Instr
  deriving DecidableEq, Repr

/-- Faults: none. The spec gives every command its effect; an error is a reply, a count, a notice or a state. -/
inductive Fault where
  deriving DecidableEq

/-- Refusals: none that the model raises. `notModelled` is the host's name for a command without a meaning; no arm uses it
(it would be safe: the model would stop where the part goes on). -/
inductive Refusal where
  | notModelled (mnemonic : String)
  deriving DecidableEq, Repr

/-- Link counts of 0. -/
def LinkCounts.zero : LinkCounts := ⟨0, 0, 0, 0, 0, 0, 0, 0⟩

/-- Host Link after device reset (R184, R185, R191, R192). -/
def Hl.reset : Hl where
  rate := .r115200
  receiver := .hunting
  rxdLow := false
  counts := LinkCounts.zero
  replies := []
  transmitter := .idle
  notices := []
  overflow := false
  attn := false
  cursor := none

/-- MSC after device reset with the pin HIGH (R172, R173, R178). -/
def Msc.reset : Msc where
  mode := .config
  stop := .clear
  source := none
  pinLow := false
  stopActive := false
  partClock := 0
  timeBase := 0
  clockSince := 0
  lastOnset := none
  liveAt := none

/-- SBC after device reset (R85, R88). -/
def Sbc.reset : Sbc where
  stations := Vector.replicate 30 Station.unused
  round := 0
  phase := .visit 1
  exchange := none
  closeAllDue := false
  owedPoll := none
  scan := none
  lastFrame := none

/-- LM after device reset (R1, R3, R7). -/
def Lm.reset : Lm where
  products := Vector.replicate 32 none
  sources := Vector.replicate 64 Source.unbound
  lines := Vector.replicate 48 none

/-- TKM after device reset (R25, R26, R30). -/
def Tkm.reset : Tkm where
  tickets := Vector.replicate 160 none
  queues := Vector.replicate 30 []
  window := 30

/-- PE after device reset (R41). -/
def Pe.reset : Pe where
  taps := Vector.replicate 96 Tap.fresh
  lineViews := Vector.replicate 48 none
  trunkViews := Vector.replicate 8 .unused
  flow := Vector.replicate 48 false
  marks := Vector.replicate 30 0

/-- CC after device reset (Table 6-1, R112, R115, R118, R121). -/
def Cc.reset : Cc where
  state := .off
  setpoint := -15
  programmed := none
  threshold := 30
  offset := 10
  lastBath := none
  probeFault := false
  degradeEnd := none
  cause := none
  hintEnd := none
  surge := false
  effective := -15
  lastStart := none
  graceEnd := none
  gate := false
  joinedOnce := false
  remote := false
  stages := Vector.replicate 3 ⟨false, none, none, false⟩
  order := [0, 1, 2]
  trunks := Vector.replicate 8 Trunk.fresh
  window := []

/-- CS after device reset with no stop in force (R129, R131, R133, R152). -/
def Cs.reset : Cs where
  programmes := Vector.replicate 6 none
  circuits := Vector.replicate 2 Circuit.fresh
  jobs := []
  nextJob := 1
  hold := false
  tanks := none

/-- AU after device reset (R28, R154, R165, R167, R168). -/
def Au.reset : Au where
  journal := []
  reserved := 0
  nextSeq := 1
  gap := 0
  refused := false
  mark := 1536
  armed := true
  cursorSeq := 1
  cursorOffset := 0
  totals := Vector.replicate 32 (Totals.zero, Totals.zero)
  tapTotals := Vector.replicate 96 (0, 0)
  issued := 0
  poured := 0
  shorted := 0
  voided := 0
  period := 0
  openedAt := 0

/-- Every block but HL after device reset with CELLAR_STOP_N high. -/
def Plant.reset : Plant where
  msc := Msc.reset
  sbc := Sbc.reset
  lm := Lm.reset
  tkm := Tkm.reset
  pe := Pe.reset
  cc := Cc.reset
  cs := Cs.reset
  au := Au.reset
  raised := []

/-- The machine right after device reset, with CELLAR_STOP_N high as RESET_N is released (R178 reads the pin as it stands;
DESIGN CHOICE, log 4). The command queue is empty. -/
def State.reset : State where
  hl := Hl.reset
  plant := Plant.reset
  pending := []

end Sys2Proof.Machine
end

