-- ==== Sys2Proof/Machine/Numbers.lean ====
section
/-!
DEFINITION. Numbers of enumerated values, "from 0 in the order in which the table or list that defines it first gives its
values" (R194), and little-endian field encodings (Table 11-1).
-/

namespace Sys2Proof.Machine

/-- Table 10-2, with OK as 0 (R194). -/
def Result.num : Result → Nat
  | .ok => 0 | .refusedState => 1 | .badParam => 2 | .notFound => 3 | .inUse => 4 | .full => 5 | .notLive => 6
  | .notConfig => 7 | .unknownKind => 8 | .badLength => 9

/-- Notice kinds (R195). -/
def NoticeKind.num : NoticeKind → Nat
  | .lineState => 0 | .sourceState => 1 | .changeoverResult => 2 | .ticketExpired => 3 | .tapState => 4
  | .calibrationReady => 5 | .trunkState => 6 | .coolingState => 7 | .stageTrip => 8 | .jobState => 9 | .jobStep => 10
  | .circuitFault => 11 | .stationState => 12 | .journalLevel => 13 | .stopState => 14 | .yieldDrift => 15 | .inputTrace => 16

/-- Table 1-5. -/
def LineState.num : LineState → Nat
  | .serving => 0 | .draining => 1 | .changeover => 2 | .dry => 3 | .cleaning => 4 | .locked => 5 | .outOfService => 6

/-- Table 1-4. -/
def contentNum : Content → Nat
  | .beer => 0 | .gas => 1 | .water => 2 | .cleaner => 3 | .unproven => 4

/-- Table 1-3. -/
def SourceState.num : SourceState → Nat
  | .vacant => 0 | .loaded => 1 | .onLine => 2 | .spent => 3 | .fault => 4

/-- Table 11-8. -/
def ChangeResult.num : ChangeResult → Nat
  | .primed => 0 | .failedTimeout => 1 | .failedRetrip => 2 | .interrupted => 3

/-- R27 lists the four outcomes of a close; the number of PARTIAL is a free value (log 9). -/
def Outcome.num : Outcome → Nat
  | .poured => 0 | .short => 1 | .voidExpired => 2 | .voidCancelled => 3 | .part => Config.partialOutcomeNumber

/-- Table 2-2. -/
def TicketState.num : TicketState → Nat
  | .queued => 1 | .claimed _ _ => 2 | .part => 3

/-- The state a CLAIMED ticket was claimed from (Table 2-1), by its number in Table 2-2 (R194). -/
def ClaimedFrom.num : ClaimedFrom → Nat
  | .queued => TicketState.num .queued | .part => TicketState.num .part

/-- Table 3-2. -/
def TapState.num : TapState → Nat
  | .unassigned => 0 | .cleaning => 1 | .off => 2 | .offline => 3 | .pouring => 4 | .ending => 5 | .held => 6 | .idle => 7

/-- The hold-reason set as one byte, LINE in bit 0 (R194). -/
def Holds.num (h : Holds) : Nat :=
  h.line.toNat + 2 * h.trunkHot.toNat + 4 * h.stop.toNat + 8 * h.journal.toNat + 16 * h.unsupervised.toNat

/-- Table 3-1. -/
def tapModeNum : TapMode → Nat
  | .ticket => 0 | .free => 1

/-- Table 3-1. -/
def Lamp.num : Lamp → Nat
  | .off => 0 | .ready => 1 | .pouring => 2 | .held => 3 | .noTicket => 4 | .cap => 5

/-- Table 3-4. -/
def PourKind.num : PourKind → Nat
  | .normal => 0 | .topup => 1 | .calibration => 2

/-- Table 3-5. -/
def EndCause.num : EndCause → Nat
  | .target => 0 | .holdExpired => 1 | .stopped => 2 | .release => 3 | .limit => 4 | .stall => 5 | .fob => 6 | .kegOut => 7
  | .cancelled => 8 | .cleanPreempt => 9 | .stop => 10 | .stationLost => 11

/-- R62. -/
def TempClass.num : TempClass → Nat
  | .cold => 0 | .warm => 1 | .hot => 2

/-- Table 6-3. -/
def TrunkState.num : TrunkState → Nat
  | .unused => 0 | .normal => 1 | .warm => 2 | .hot => 3 | .probeFault => 4 | .unknown => 5

/-- Table 11-8. -/
def TrunkCause.num : TrunkCause → Nat
  | .temperature => 0 | .probe => 1 | .graceEnd => 2 | .defined => 3 | .pumpFault => 4

/-- Table 6-1. -/
def CoolingState.num : CoolingState → Nat
  | .off => 0 | .running => 1 | .degraded => 2 | .unsupervised => 3

/-- Table 11-8. -/
def CoolingCause.num : CoolingCause → Nat
  | .start => 0 | .joined => 1 | .lost => 2 | .bathHigh => 3 | .allTripped => 4 | .recovered => 5

/-- Table 6-1. -/
def DegradeCause.num : DegradeCause → Nat
  | .bathHigh => 0 | .allTripped => 1

/-- Table 7-1. -/
def mediumNum : Medium → Nat
  | .water => 0 | .caustic => 1 | .acid => 2

/-- Table 7-2: NONE, WATER, CAUSTIC, ACID. -/
def mediumOutNum : MediumOut → Nat
  | none => 0 | some m => mediumNum m + 1

/-- Table 7-2. -/
def CircuitState.num : CircuitState → Nat
  | .free => 0 | .busy => 1 | .fault => 2

/-- Table 7-2. -/
def FaultCause.num : FaultCause → Nat
  | .stop => 0 | .stationLost => 1 | .tankLow => 2 | .cap => 3 | .timeout => 4

/-- Table 7-4. -/
def JobState.num : JobState → Nat
  | .queued => 0 | .draining => 1 | .capCheck => 2 | .running => 3 | .paused => 4 | .beerReturn => 5 | .flushing => 6
  | .complete => 7 | .aborted => 8

/-- Table 7-3. -/
def AbortCause.num : AbortCause → Nat
  | .host => 0 | .stop => 1 | .stationLost => 2 | .tankLow => 3 | .capTimeout => 4 | .pauseTimeout => 5 | .proofFailed => 6
  | .pushTimeout => 7

/-- R148. -/
def FlushResult.num : FlushResult → Nat
  | .failed => 0 | .performed => 1 | .notRun => 2

/-- Table 5-3. -/
def stationTypeNum : StationType → Nat
  | .tap => 0 | .cellar => 1 | .cooling => 2 | .cleaning => 3

/-- Table 5-4. -/
def StationState.num : StationState → Nat
  | .absent => 0 | .joining => 1 | .active => 2 | .lost => 3 | .mismatch => 4

/-- R87. -/
def LossCause.num : LossCause → Nat
  | .misses => 0 | .restart => 1 | .redefined => 2

/-- R172. -/
def Mode.num : Mode → Nat
  | .config => 0 | .live => 1

/-- R178. -/
def StopState.num : StopState → Nat
  | .clear => 0 | .active => 1 | .releasable => 2

/-- R178. -/
def StopSource.num : StopSource → Nat
  | .pin => 0 | .request => 1

/-- Table 1-6. -/
def Route.num : Route → Nat
  | .closed => 0 | .supply => 1 | .clean => 2

/-- §3.4. -/
def ValveCmd.num : ValveCmd → Nat
  | .closed => 0 | .openTo _ => 1 | .openHold => 2

/-- Table 10-4. -/
def tableNum : TableName → Nat
  | .products => 0 | .sources => 1 | .lines => 2 | .tickets => 3 | .taps => 4 | .stations => 5 | .stationInputs => 6
  | .stationOutputs => 7 | .cooling => 8 | .stages => 9 | .trunks => 10 | .programmes => 11 | .jobs => 12 | .circuits => 13
  | .journalState => 14 | .accounts => 15 | .productTotals => 16 | .tapTotals => 17 | .mode => 18 | .link => 19

/-- The number an enumerated field carries: its value's number, 255 for absent, or the number itself. -/
def enumFieldNum {α : Type} (num : α → Nat) : EnumField α → Nat
  | .val a => num a
  | .absent => 255
  | .bad n => n

/-- `n` in `width` bytes, low byte first (00_scope.md §0.8). -/
def leBytes : Nat → Nat → List Byte
  | 0, _ => []
  | w + 1, n => BitVec.ofNat 8 n :: leBytes w (n / 256)

/-- A one-byte field; 255 stands for absent. -/
def fByte (n : Nat) : List Byte := leBytes 1 n
/-- A two-byte field. -/
def fHalf (n : Nat) : List Byte := leBytes 2 n
/-- A three-byte field. -/
def fThree (n : Nat) : List Byte := leBytes 3 n
/-- A four-byte field. -/
def fWord (n : Nat) : List Byte := leBytes 4 n
/-- A flag: 1 set, 0 clear. -/
def fFlag (b : Bool) : List Byte := fByte b.toNat
/-- A signed temperature of two bytes. -/
def fTemp (t : Int) : List Byte := fHalf (t % 65536).toNat
/-- An index, enumerated value or flag that may be absent. -/
def fOptByte : Option Nat → List Byte
  | none => fByte 255 | some n => fByte n
/-- A two-byte field that may be absent. -/
def fOptHalf : Option Nat → List Byte
  | none => fHalf 65535 | some n => fHalf n
/-- A four-byte field that may be absent. -/
def fOptWord : Option Nat → List Byte
  | none => fWord 4294967295 | some n => fWord n
/-- A temperature that may be absent. -/
def fOptTemp : Option Int → List Byte
  | none => fHalf 0x7FFF | some t => fTemp t
/-- A list: its count, then its items. -/
def fList {α : Type} (item : α → List Byte) (l : List α) : List Byte := fByte l.length ++ l.flatMap item

end Sys2Proof.Machine
end

