-- ==== Sys2Proof/Machine/Ops.lean ====
section
/-!
DEFINITION. Named operations over the state: reading and writing an entry of each table, raising a notice, and HL taking the
notices a command has raised (R192). Table indices are numbers; an index outside a table reads as an entry that is not in use
and writes nothing.
-/

namespace Sys2Proof.Machine

/-! ### Reading and writing table entries -/

/-- The present time of the time base, ms (R173). -/
def Plant.now (p : Plant) : Nat := p.msc.timeBase

/-- The part clock (R173). -/
def Plant.clock (p : Plant) : Word32 := p.msc.partClock

/-- Stop is in force in ACTIVE and RELEASABLE (§9.4). -/
def Plant.stopped (p : Plant) : Bool := p.msc.stop != .clear

/-- The mode is LIVE (R172). -/
def Plant.live (p : Plant) : Bool := p.msc.mode == .live

/-- The station entry of an address; an address outside 1 to 30 reads as unused. -/
def Plant.station (p : Plant) (a : Nat) : Station := if a = 0 then Station.unused else (p.sbc.stations[a - 1]?).getD Station.unused

/-- Writes the station entry of an address. -/
def Plant.setStation (p : Plant) (a : Nat) (v : Station) : Plant :=
  if a = 0 then p else { p with sbc := { p.sbc with stations := p.sbc.stations.setIfInBounds (a - 1) v } }

/-- The station of an address is ACTIVE (Table 5-4). -/
def Plant.active (p : Plant) (a : Nat) : Bool := (p.station a).kind.isSome && (p.station a).state == .active

/-- The address is defined with the type named. -/
def Plant.isType (p : Plant) (a : Nat) (t : StationType) : Bool := (p.station a).kind == some t

/-- Station addresses, ascending. -/
def addresses : List Nat := (List.range 30).map (· + 1)

/-- The address of the one station of a type that has at most one (COOLING, CLEANING). -/
def Plant.addressOf (p : Plant) (t : StationType) : Option Nat := addresses.find? fun a => p.isType a t

/-- The product entry of an index (R1). -/
def Plant.product (p : Plant) (i : Nat) : Option Product := (p.lm.products[i]?).getD none

/-- The code an index holds, if it is defined (R1). -/
def Plant.code (p : Plant) (i : Nat) : Option Nat := (p.product i).map (·.code)

/-- Writes a product entry. -/
def Plant.setProduct (p : Plant) (i : Nat) (v : Option Product) : Plant :=
  { p with lm := { p.lm with products := p.lm.products.setIfInBounds i v } }

/-- The source position entry of a number (R3). -/
def Plant.source (p : Plant) (i : Nat) : Source := (p.lm.sources[i]?).getD Source.unbound

/-- Writes a source position entry. -/
def Plant.setSource (p : Plant) (i : Nat) (v : Source) : Plant :=
  { p with lm := { p.lm with sources := p.lm.sources.setIfInBounds i v } }

/-- The line entry of a number, if it is defined (R7). -/
def Plant.line (p : Plant) (i : Nat) : Option Line := (p.lm.lines[i]?).getD none

/-- Writes a line entry. -/
def Plant.setLine (p : Plant) (i : Nat) (v : Line) : Plant :=
  { p with lm := { p.lm with lines := p.lm.lines.setIfInBounds i (some v) } }

/-- Changes a defined line entry; an undefined one stays undefined. -/
def Plant.modLine (p : Plant) (i : Nat) (f : Line → Line) : Plant :=
  match p.line i with
  | none => p
  | some l => p.setLine i (f l)

/-- The ticket record of an index, if it is not FREE (R25). -/
def Plant.ticket (p : Plant) (i : Nat) : Option Ticket := (p.tkm.tickets[i]?).getD none

/-- Writes a ticket record. -/
def Plant.setTicket (p : Plant) (i : Nat) (v : Option Ticket) : Plant :=
  { p with tkm := { p.tkm with tickets := p.tkm.tickets.setIfInBounds i v } }

/-- The ticket queue of a station address (R26). -/
def Plant.queue (p : Plant) (a : Nat) : List Nat := if a = 0 then [] else (p.tkm.queues[a - 1]?).getD []

/-- Writes the ticket queue of a station address. -/
def Plant.setQueue (p : Plant) (a : Nat) (q : List Nat) : Plant :=
  if a = 0 then p else { p with tkm := { p.tkm with queues := p.tkm.queues.setIfInBounds (a - 1) q } }

/-- The tap entry of a number (R41). -/
def Plant.tap (p : Plant) (i : Nat) : Tap := (p.pe.taps[i]?).getD Tap.fresh

/-- Writes a tap entry. -/
def Plant.setTap (p : Plant) (i : Nat) (v : Tap) : Plant :=
  { p with pe := { p.pe with taps := p.pe.taps.setIfInBounds i v } }

/-- Changes a tap entry. -/
def Plant.modTap (p : Plant) (i : Nat) (f : Tap → Tap) : Plant := p.setTap i (f (p.tap i))

/-- PE's view of a line (R41). -/
def Plant.lineView (p : Plant) (l : Nat) : Option LineView := (p.pe.lineViews[l]?).getD none

/-- Writes PE's view of a line. -/
def Plant.setLineView (p : Plant) (l : Nat) (v : LineView) : Plant :=
  { p with pe := { p.pe with lineViews := p.pe.lineViews.setIfInBounds l (some v) } }

/-- PE's view of a trunk's state (R41). -/
def Plant.trunkView (p : Plant) (t : Nat) : TrunkState := (p.pe.trunkViews[t]?).getD .unused

/-- Writes PE's view of a trunk's state. -/
def Plant.setTrunkView (p : Plant) (t : Nat) (v : TrunkState) : Plant :=
  { p with pe := { p.pe with trunkViews := p.pe.trunkViews.setIfInBounds t v } }

/-- CS's flow request for a line (R66). -/
def Plant.flow (p : Plant) (l : Nat) : Bool := (p.pe.flow[l]?).getD false

/-- Writes CS's flow request for a line. -/
def Plant.setFlow (p : Plant) (l : Nat) (v : Bool) : Plant :=
  { p with pe := { p.pe with flow := p.pe.flow.setIfInBounds l v } }

/-- Product marks of the last queue event of a station (R49). -/
def Plant.marksOf (p : Plant) (a : Nat) : Marks := if a = 0 then 0 else (p.pe.marks[a - 1]?).getD 0

/-- Writes the product marks of a station. -/
def Plant.setMarks (p : Plant) (a : Nat) (m : Marks) : Plant :=
  if a = 0 then p else { p with pe := { p.pe with marks := p.pe.marks.setIfInBounds (a - 1) m } }

/-- A stage entry (R112). -/
def Plant.stage (p : Plant) (i : Nat) : Stage := (p.cc.stages[i]?).getD ⟨false, none, none, false⟩

/-- Writes a stage entry. -/
def Plant.setStage (p : Plant) (i : Nat) (v : Stage) : Plant :=
  { p with cc := { p.cc with stages := p.cc.stages.setIfInBounds i v } }

/-- A trunk entry (R121). -/
def Plant.trunk (p : Plant) (i : Nat) : Trunk := (p.cc.trunks[i]?).getD Trunk.fresh

/-- Writes a trunk entry. -/
def Plant.setTrunk (p : Plant) (i : Nat) (v : Trunk) : Plant :=
  { p with cc := { p.cc with trunks := p.cc.trunks.setIfInBounds i v } }

/-- A programme entry, if it is defined (R129). -/
def Plant.programme (p : Plant) (i : Nat) : Option Programme := (p.cs.programmes[i]?).getD none

/-- Writes a programme entry. -/
def Plant.setProgramme (p : Plant) (i : Nat) (v : Option Programme) : Plant :=
  { p with cs := { p.cs with programmes := p.cs.programmes.setIfInBounds i v } }

/-- A circuit entry (R131). -/
def Plant.circuit (p : Plant) (i : Nat) : Circuit := (p.cs.circuits[i]?).getD Circuit.fresh

/-- Writes a circuit entry. -/
def Plant.setCircuit (p : Plant) (i : Nat) (v : Circuit) : Plant :=
  { p with cs := { p.cs with circuits := p.cs.circuits.setIfInBounds i v } }

/-- The unfinished job of an id (R133). -/
def Plant.job (p : Plant) (id : Nat) : Option Job := p.cs.jobs.find? fun j => j.id == id

/-- Changes the job record of an id. -/
def Plant.modJob (p : Plant) (id : Nat) (f : Job → Job) : Plant :=
  { p with cs := { p.cs with jobs := p.cs.jobs.map fun j => if j.id == id then f j else j } }

/-- Product totals of an index, period and lifetime (R165). -/
def Plant.totals (p : Plant) (i : Nat) : Totals × Totals := (p.au.totals[i]?).getD (Totals.zero, Totals.zero)

/-- Period pour count and volume of a tap (R167). -/
def Plant.tapTotals (p : Plant) (i : Nat) : Nat × Nat := (p.au.tapTotals[i]?).getD (0, 0)

/-- Taps of a line, ascending (R7). -/
def Plant.tapsOfLine (p : Plant) (l : Nat) : List Nat := (List.range 96).filter fun i => (p.tap i).line == some l

/-- Taps of a station, ascending in number. -/
def Plant.tapsOfStation (p : Plant) (a : Nat) : List Nat :=
  (List.range 96).filter fun i => (p.tap i).station.map (·.1) == some a

/-- The tap on a tap index of a station. -/
def Plant.tapAt (p : Plant) (a k : Nat) : Option Nat := (List.range 96).find? fun i => (p.tap i).station == some (a, k)

/-- Defined lines fed from a cellar station, ascending. -/
def Plant.linesOfStation (p : Plant) (a : Nat) : List Nat :=
  (List.range 48).filter fun i => (p.line i).map (·.station) == some a

/-- The line on an outlet of a cellar station. -/
def Plant.lineAt (p : Plant) (a k : Nat) : Option Nat :=
  (List.range 48).find? fun i => (p.line i).map (fun l => (l.station, l.index)) == some (a, k)

/-- Positions bound to a cellar station, ascending. -/
def Plant.positionsOf (p : Plant) (a : Nat) : List Nat :=
  (List.range 64).filter fun i => (p.source i).bound.map (·.1) == some a

/-- The position at the head of a line's chain (§1.4). -/
def Line.head? (l : Line) : Option Nat := l.chain.head?

/-- The ON_LINE head of a line, if it has one (§1.4). -/
def Plant.onLineHead (p : Plant) (l : Line) : Option Nat :=
  match l.chain with
  | [] => none
  | h :: _ => if (p.source h).state == .onLine then some h else none

/-- Applies an operation for each item of a list, in order. -/
def forEach {α : Type} (l : List α) (f : α → Plant → Plant) (p : Plant) : Plant := l.foldl (fun q a => f a q) p

/-! ### Notices -/

/-- A block raises a notice (R192): it stands in `raised` until the command's end. Its time is the part clock now. -/
def Plant.raise (p : Plant) (k : NoticeKind) (subject first second : Nat) : Plant :=
  { p with raised := p.raised ++ [⟨k, subject, first, second, p.msc.partClock⟩] }

/-- HL adds a notice at the tail, or drops it and sets the overflow flag (R192). -/
def Hl.take (h : Hl) (n : Notice) : Hl :=
  if h.notices.length < Config.noticeCapacity then { h with notices := h.notices ++ [n], attn := true }
  else { h with overflow := true }

/-- HL takes the notices of the command at hand, in the order raised (R192). -/
def deliver (s : State) : State :=
  { s with hl := s.plant.raised.foldl Hl.take s.hl, plant := { s.plant with raised := [] } }

/-- The present time has come to a timer's end. -/
def due (now : Nat) (deadline : Option Nat) : Bool :=
  match deadline with
  | none => false
  | some d => decide (d ≤ now)

end Sys2Proof.Machine
end

