-- ==== Sys2Proof/Machine/Flags.lean ====
section
/-!
DEFINITION. Derived conditions: what the spec computes from the tables wherever it is asked (holds, tap states, lamps, valve
commands, outlet outputs, trunk states, surge, gate, poll class, programme validity, ticket marks).
-/

namespace Sys2Proof.Machine

/-! ### Taps (chapter 3) -/

/-- The hold-reason set of a tap (R43): empty while it has no line. -/
def Plant.holdsFor (p : Plant) (t : Tap) : Holds :=
  match t.line with
  | none => Holds.none
  | some l =>
    match p.lineView l with
    | none => { line := true, trunkHot := false, stop := p.stopped, journal := p.au.refused, unsupervised := false }
    | some v =>
      { line := v.state != .serving, trunkHot := p.trunkView v.trunk == .hot, stop := p.stopped, journal := p.au.refused,
        unsupervised := v.unsupervised }

/-- The tap's station is ACTIVE, as PE sees it (Table 3-2). PE takes the reports of tap stations alone (R87), so a station of another
type is never ACTIVE to it (R96; DEDUCED, log 64). -/
def Plant.tapOnline (p : Plant) (t : Tap) : Bool :=
  match t.station with
  | none => false
  | some (a, _) => p.isType a .tap && p.active a

/-- The first row of Table 3-2 that applies (R42). -/
def Plant.tapStateFor (p : Plant) (t : Tap) : TapState :=
  if t.line.isNone then .unassigned
  else if t.cleaning then .cleaning
  else if t.off && t.pour.isNone then .off
  else if !p.tapOnline t then .offline
  else match t.pour with
    | some u => if u.cause.isNone then .pouring else .ending
    | none => if t.holds != Holds.none then .held else .idle

/-- The product index of the line a tap pours (R51). -/
def Plant.tapProduct (p : Plant) (t : Tap) : Option Nat := t.line.bind fun l => (p.line l).map (·.product)

/-- The product of the tap's line is marked in its station's last queue event (R49). -/
def Plant.marked (p : Plant) (t : Tap) : Bool :=
  match t.station, p.tapProduct t with
  | some (a, _), some i => (p.marksOf a).getLsbD i
  | _, _ => false

/-- The lamp of a tap, by Table 3-3 (R49). -/
def Plant.lampFor (p : Plant) (t : Tap) : Lamp :=
  match t.state with
  | .unassigned | .off | .offline => .off
  | .cleaning => .cap
  | .pouring | .ending => .pouring
  | .held => .held
  | .idle =>
    if t.mode == .free then .ready
    else if t.noTicket.isSome then .noTicket
    else if p.marked t then .ready
    else .off

/-- The line lets a POURING tap's valve stay open: SERVING or DRAINING in PE's view (R48). -/
def Plant.lineOpen (p : Plant) (l : Nat) : Bool :=
  match p.lineView l with
  | none => false
  | some v => v.state == .serving || v.state == .draining

/-- The valve command of a tap, by the law of R48 and by R66. -/
def Plant.valveFor (p : Plant) (t : Tap) : ValveCmd :=
  match t.line with
  | none => .closed
  | some l =>
    match t.state, t.pour with
    | .pouring, some u =>
      if p.lineOpen l then (match u.target with | some c => .openTo c | none => .openHold) else .closed
    | .cleaning, _ =>
      if p.flow l && t.capImage == some true && p.tapOnline t && !p.stopped then .openHold else .closed
    | _, _ => .closed

/-- The temperature class of a trunk state (R62). -/
def tempClass : TrunkState → TempClass
  | .normal => .cold
  | .hot => .hot
  | _ => .warm

/-- The higher of two classes (R62). -/
def TempClass.worse (a b : TempClass) : TempClass := if a.num < b.num then b else a

/-- Pulses for a volume, rounded up (R69). -/
def pulsesFor (ml factor : Nat) : Nat := ceilDiv (ml * factor) 1000

/-- Volume of a number of pulses, rounded down (R69). -/
def volumeOf (pulses factor : Nat) : Nat := pulses * 1000 / factor

/-! ### Tickets (chapter 2) -/

/-- The ticket waits to be claimed: QUEUED or PARTIAL (R31). -/
def Ticket.waiting (k : Ticket) : Bool :=
  match k.state with
  | .queued | .part => true
  | .claimed _ _ => false

/-- The product marks of a station's queue (R39). -/
def Plant.queueMarks (p : Plant) (a : Nat) : Marks :=
  (p.queue a).foldl (fun m i =>
    match p.ticket i with
    | some k => if k.waiting then m ||| (1#32 <<< k.product) else m
    | none => m) 0#32

/-- The shortfall tolerance of a product index (R34); an undefined index has the default of Table 1-1. -/
def Plant.tolerance (p : Plant) (i : Nat) : Nat :=
  match p.product i with
  | some d => d.tolerance
  | none => 15

/-! ### Lines (chapter 1) -/

/-- The coupler index of a position. -/
def Plant.couplerOf (p : Plant) (i : Nat) : Option Nat := (p.source i).bound.map (·.2)

/-- Outlet outputs of a line, by Table 1-6 (R10). A CLEANING line with an ON_LINE head is under beer return. -/
def Plant.outletFor (p : Plant) (l : Line) : Outlet :=
  match l.state with
  | .serving | .draining => ⟨(p.onLineHead l).bind p.couplerOf, .supply, false⟩
  | .changeover => ⟨(l.change.map (·.position)).bind p.couplerOf, .supply, true⟩
  | .cleaning =>
    match p.onLineHead l with
    | some h => ⟨p.couplerOf h, .supply, false⟩
    | none => ⟨none, .clean, false⟩
  | .dry | .locked | .outOfService => ⟨(p.onLineHead l).bind p.couplerOf, .closed, false⟩

/-- A keg's remaining volume is more than 15 % of nominal (R6). -/
def earlyTrip (nominal dispensed : Nat) : Bool := nominal * 15 < (nominal - dispensed) * 100

/-- The yield in per mille (R170). -/
def yieldOf (nominal dispensed : Nat) : Nat := min 65535 (dispensed * 1000 / nominal)

/-- The yield calls for a YIELD_DRIFT notice (R170). -/
def yieldDrifts (y : Nat) : Bool := y < 950 || 1030 < y

/-- SERVING or DRAINING. -/
def LineState.pours (s : LineState) : Bool := s == .serving || s == .draining

/-! ### Journal (chapter 8) -/

/-- The number of held entries (R154). -/
def Plant.fill (p : Plant) : Nat := p.au.journal.length

/-- The available places (R154). -/
def Plant.available (p : Plant) : Nat := Config.journalCapacity - p.fill - p.au.reserved

/-- A reservation request would be granted (R157). -/
def Plant.grants (p : Plant) : Bool := Config.nonPourReserve < p.available

/-- A non-pour entry would find a place (R159). -/
def Plant.room (p : Plant) : Bool := 1 ≤ p.available

/-! ### Cooling (chapter 6) -/

/-- The temperature lies from −20.0 to +40.0 °C (R111, R122). -/
def inProbeRange (t : Int) : Bool := -200 ≤ t && t ≤ 400

/-- Sum of the volumes in the pour-load window (R118). -/
def Cc.windowSum (c : Cc) : Nat := (c.window.map (·.2)).sum

/-- Surge by R120. -/
def Cc.surgeFor (c : Cc) : Bool := c.threshold * 1000 ≤ c.windowSum || c.hintEnd.isSome

/-- The effective setpoint (R107). -/
def Cc.effectiveFor (c : Cc) : Int := if c.surge then c.setpoint - c.offset else c.setpoint

/-- The start limit (R107). -/
def Cc.startLimit (c : Cc) : Int := c.effective + Config.band
/-- The stop limit (R107). -/
def Cc.stopLimit (c : Cc) : Int := c.effective - Config.band
/-- The degrade limit (R110). -/
def Cc.degradeLimit (c : Cc) : Int := c.effective + 30

/-- The last reading is known and at or below the effective setpoint plus 1.0 °C (R110, R127). -/
def Cc.coldEnough (c : Cc) : Bool :=
  match c.lastBath with
  | none => false
  | some t => t ≤ c.effective + 10

/-- The gate condition (R127). -/
def Cc.gateFor (c : Cc) : Bool := c.state == .running && !c.probeFault && c.coldEnough

/-- All three stages have their trip flag set (R109). -/
def Cc.allTripped (c : Cc) : Bool := c.stages.toList.all (·.tripped)

/-- Minimum on time in force, ms (Table 6-1). -/
def Cc.minOn (c : Cc) : Nat := match c.programmed with | none => 180000 | some (a, _) => a * 1000
/-- Minimum off time in force, ms (Table 6-1). -/
def Cc.minOff (c : Cc) : Nat := match c.programmed with | none => 300000 | some (_, b) => b * 1000

/-- `span` ms have passed since a recorded time; no record counts as passed. -/
def passed (now span : Nat) : Option Nat → Bool
  | none => true
  | some t => t + span ≤ now

/-- The trunk state from a valid return temperature (Table 6-4). -/
def trunkJudge (before : TrunkState) (warm hot t : Int) : TrunkState :=
  if hot ≤ t then .hot
  else if hot - Config.hysteresis ≤ t then (if before == .hot then .hot else .warm)
  else if warm ≤ t then .warm
  else if warm - Config.hysteresis ≤ t then (if before == .warm || before == .hot then .warm else .normal)
  else .normal

/-! ### Cleaning (chapter 7) -/

/-- The medium a step names (Table 7-1). -/
def Step.medium? : Step → Option Medium
  | .push m _ => some m
  | .recirculate m _ => some m
  | .soak _ => none
  | .pulse m _ => some m
  | .prove m _ _ _ => some m

/-- A chemical step (R129). -/
def Step.chemical (s : Step) : Bool := s.medium? == some .caustic || s.medium? == some .acid

/-- A WATER PROVE (R129). -/
def Step.waterProve : Step → Bool
  | .prove .water _ _ _ => true
  | _ => false

/-- The valid flag of a programme (R129): its last step, if any, is a WATER PROVE, and a WATER PROVE stands after the last
chemical step. -/
def stepsValid (steps : List Step) : Bool :=
  (match steps.getLast? with | none => true | some s => s.waterProve)
    && (!steps.any Step.chemical || (steps.reverse.takeWhile fun s => !s.chemical).any Step.waterProve)

/-- The tanks a programme needs (R135). -/
def mediaNeeded (steps : List Step) : List Medium :=
  (if steps.any Step.chemical then [.water] else []) ++ steps.filterMap Step.medium?

/-- The tank of a medium is OK; an unknown tank counts as LOW (R132). -/
def Cs.tankOk (c : Cs) (m : Medium) : Bool :=
  match c.tanks with
  | none => false
  | some v => !(v.toList.getD (mediumNum m) true)

/-- The steps of a programme number (R130). -/
def Plant.stepsOf (p : Plant) (n : Nat) : List Step :=
  match p.programme n with
  | none => []
  | some g => g.steps

/-- The job holds a circuit and is not finished. -/
def Job.granted (j : Job) : Bool := j.circuit.isSome

/-- Return meter millilitres since a job's base, modulo 2^24 (R132); no base or an unknown count gives none. -/
def Plant.metered (p : Plant) (j : Job) : Option Nat :=
  match j.circuit, j.base with
  | some c, some b => (p.circuit c).meter.map fun m => (m - b).toNat
  | _, _ => none

/-- The sum of the line volumes of lines (R141). -/
def Plant.volumes (p : Plant) (lines : List Nat) : Nat := (lines.map fun l => match p.line l with | some x => x.volume | none => 0).sum

/-! ### The station bus (chapter 5) -/

/-- The poll class FAST of an ACTIVE station, judged at the visit (R89). A line whose beer return is PAUSED is in beer return (log 67). -/
def Plant.fast (p : Plant) (a : Nat) : Bool :=
  match (p.station a).kind with
  | some .tap => (p.tapsOfStation a).any fun t => (p.tap t).state == .pouring || (p.tap t).state == .ending || (p.tap t).state == .cleaning
  | some .cellar => (p.linesOfStation a).any fun l =>
      match p.line l with
      | some x => x.state == .changeover || (p.cs.jobs.any fun j => j.returnLine == some l)
      | none => false
  | some .cleaning => p.cs.circuits.toList.any fun c => c.state == .busy
  | _ => false

end Sys2Proof.Machine
end

