-- ==== Sys2Proof/Machine/Journal.lean ====
section
/-!
DEFINITION. The Accounting Unit's writes (chapter 8): entries into the journal ring, reservations, additions to the totals.
-/

namespace Sys2Proof.Machine

/-- An entry is written: it takes the next seq and the part clock, and carries the gap part when the gap count is above 0
(R155, R158, R159); crossing the armed high-water mark raises JOURNAL_LEVEL (R161), with subject 0 (log 63). -/
def Plant.append (p : Plant) (b : EntryBody) : Plant :=
  let e : Entry := ⟨p.au.nextSeq, p.clock, if p.au.gap = 0 then none else some p.au.gap, b⟩
  let q : Plant := { p with au := { p.au with journal := p.au.journal ++ [e], nextSeq := p.au.nextSeq + 1, gap := 0 } }
  if p.au.armed && p.fill < p.au.mark && p.au.mark ≤ p.fill + 1 then
    ({ q with au := { q.au with armed := false } }).raise .journalLevel 0 2 (p.fill + 1)
  else q

/-- A non-pour entry is written, or dropped and counted in the gap count when no place is available (R159). -/
def Plant.record (p : Plant) (b : EntryBody) : Plant :=
  if p.room then p.append b else { p with au := { p.au with gap := satAdd Config.countMax p.au.gap 1 } }

/-- A granted reservation (R157). -/
def Plant.reserve (p : Plant) : Plant := { p with au := { p.au with reserved := p.au.reserved + 1 } }

/-- A refused reservation: the refused flag and its notice, once (R157). -/
def Plant.refuseReservation (p : Plant) : Plant :=
  if p.au.refused then p
  else ({ p with au := { p.au with refused := true } }).raise .journalLevel 0 0 p.fill

/-- A POUR entry is written into its reserved place (R158). -/
def Plant.recordPour (p : Plant) (b : EntryBody) : Plant :=
  ({ p with au := { p.au with reserved := p.au.reserved - 1 } }).append b

/-- One part of a totals record grows by millilitres in a category (R166), each field staying at its largest value (R165). -/
def Totals.add (t : Totals) (cap : Nat) (c : Category) (ml pours : Nat) : Totals :=
  let u : Totals := { t with pours := satAdd Config.max32 t.pours pours }
  match c with
  | .ticketed => { u with ticketed := satAdd cap u.ticketed ml }
  | .free => { u with free := satAdd cap u.free ml }
  | .purge => { u with purge := satAdd cap u.purge ml }
  | .calibration => { u with calibration := satAdd cap u.calibration ml }

/-- One part of a totals record counts a SHORT close (R166). -/
def Totals.addShort (t : Totals) : Totals := { t with shorts := satAdd Config.max32 t.shorts 1 }

/-- Writes the totals record of a product index. -/
def Plant.setTotals (p : Plant) (i : Nat) (t : Totals × Totals) : Plant :=
  { p with au := { p.au with totals := p.au.totals.setIfInBounds i t } }

/-- A product's totals grow, period and lifetime part together (R166). -/
def Plant.addProduct (p : Plant) (i : Option Nat) (c : Category) (ml pours : Nat) : Plant :=
  match i with
  | none => p
  | some i => p.setTotals i ((p.totals i).1.add Config.max32 c ml pours, (p.totals i).2.add Config.max48 c ml pours)

/-- A product's short counts grow by 1 (R166). -/
def Plant.addShort (p : Plant) (i : Nat) : Plant := p.setTotals i ((p.totals i).1.addShort, (p.totals i).2.addShort)

/-- A tap's period figures grow (R167). -/
def Plant.addTap (p : Plant) (t ml pours : Nat) : Plant :=
  let u := p.tapTotals t
  { p with au := { p.au with
      tapTotals := p.au.tapTotals.setIfInBounds t (satAdd Config.max32 u.1 pours, satAdd Config.max32 u.2 ml) } }

/-- A source's dispensed volume grows while it holds a keg loaded no later than `since` (R166, R167, R74). -/
def Plant.addSource (p : Plant) (i : Option Nat) (ml since : Nat) : Plant :=
  match i with
  | none => p
  | some i =>
    match (p.source i).keg with
    | none => p
    | some k =>
      if k.loadBase ≤ since then
        p.setSource i { p.source i with keg := some { k with dispensed := satAdd Config.max32 k.dispensed ml } }
      else p

/-- A ticket close is counted by its outcome (R28); SHORT also counts for the product (R166). -/
def Plant.countClose (p : Plant) (o : Outcome) (product : Nat) : Plant :=
  match o with
  | .poured => { p with au := { p.au with poured := p.au.poured + 1 } }
  | .short => ({ p with au := { p.au with shorted := p.au.shorted + 1 } }).addShort product
  | .voidExpired | .voidCancelled => { p with au := { p.au with voided := p.au.voided + 1 } }
  | .part => p

/-- A ticket issue is counted (R28). -/
def Plant.countIssue (p : Plant) : Plant := { p with au := { p.au with issued := p.au.issued + 1 } }

/-- Distance of a seq behind the next seq, modulo 2^32 (R155). -/
def Plant.behind (p : Plant) (q : Word32) : Nat := (p.au.nextSeq - q).toNat

/-- The seq names a held entry (R155). -/
def Plant.seqHeld (p : Plant) (q : Word32) : Bool := 1 ≤ p.behind q && p.behind q ≤ p.fill

/-- The seq names an entry not yet written (R155). -/
def Plant.seqAhead (p : Plant) (q : Word32) : Bool := p.behind q = 0 || 2147483648 < p.behind q

/-- The seq of the oldest held entry, or the next seq when none is held. -/
def Plant.oldestSeq (p : Plant) : Word32 :=
  match p.au.journal with
  | [] => p.au.nextSeq
  | e :: _ => e.seq

end Sys2Proof.Machine
end

