-- ==== Sys2Proof/Machine/Taps.lean ====
section
/-!
DEFINITION. The Pour Engine's upkeep of a tap (chapter 3): state, holds, lamp, valve command, staged settings.
-/

namespace Sys2Proof.Machine

/-- The staged settings are applied and removed (R45). -/
def Tap.applyStaged (t : Tap) : Tap :=
  { t with
    mode := t.staged.mode.getD t.mode
    factor := t.staged.factor.getD t.factor
    limit := t.staged.limit.getD t.limit
    staged := Staged.none }

/-- IDLE, POURING and ENDING: changes among them raise no TAP_STATE notice (R42). -/
def TapState.quiet : TapState → Bool
  | .idle | .pouring | .ending => true
  | _ => false

/-- Entering the state discards an ARMED sub-record (R77). -/
def TapState.disarms : TapState → Bool
  | .off | .offline | .cleaning | .unassigned => true
  | _ => false

/-- The sub-record after an ARMED one is discarded (R77). -/
def disarmed : Option Calibration → Option Calibration
  | some (.armed _ _ _) => none
  | c => c

/-- What a change of state does to the tap's own fields: a no-ticket display ends (R49), an ARMED sub-record may go (R77). -/
def Tap.enter (t : Tap) (st : TapState) : Tap :=
  if t.state == st then t
  else { t with state := st, noTicket := none, calibration := if st.disarms then disarmed t.calibration else t.calibration }

/-- The tap with holds and state set afresh, and staged settings applied in IDLE or HELD (R42, R43, R45). -/
def Plant.tapSettled (p : Plant) (t : Tap) : Tap :=
  let u : Tap := { t with holds := p.holdsFor t }
  let v := u.enter (p.tapStateFor u)
  if v.state == .idle || v.state == .held then v.applyStaged else v

/-- The tap with its outputs set afresh (R48, R49). -/
def Plant.tapOutputs (p : Plant) (t : Tap) : Tap := { t with lamp := p.lampFor t, valve := p.valveFor t }

/-- The TAP_STATE notice of a change of state (R42). -/
def Plant.raiseTapState (p : Plant) (i : Nat) (before after : Tap) : Plant :=
  if before.state == after.state || (before.state.quiet && after.state.quiet) then p
  else p.raise .tapState i after.state.num (if after.state == .held then after.holds.num else 0)

/-- PE sets a tap's holds, state, staged settings, lamp and valve command afresh (R42, R43, R45, R48, R49). -/
def Plant.refreshTap (p : Plant) (i : Nat) : Plant :=
  let t := p.tap i
  let u := p.tapOutputs (p.tapSettled t)
  (p.setTap i u).raiseTapState i t u

/-- Refreshes taps, in the order given. -/
def Plant.refreshTaps (p : Plant) (l : List Nat) : Plant := l.foldl Plant.refreshTap p

/-- Every tap that has a line, ascending. -/
def Plant.mappedTaps (p : Plant) : List Nat := (List.range 96).filter fun i => (p.tap i).line.isSome

/-- Refreshes every mapped tap (R63, R64). -/
def Plant.refreshMapped (p : Plant) : Plant := p.refreshTaps p.mappedTaps

/-- Changes a tap's own fields and refreshes it. -/
def Plant.changeTap (p : Plant) (i : Nat) (f : Tap → Tap) : Plant := (p.modTap i f).refreshTap i

/-- PE takes an end cause for a POURING tap (R54); in any other state nothing happens. -/
def Plant.takeCause (p : Plant) (i : Nat) (c : EndCause) : Plant :=
  if (p.tap i).state == .pouring then
    p.changeTap i fun t =>
      { t with pour := t.pour.map fun u => { u with cause := some c, limitEnd := none, endingEnd := some (p.now + Config.endingWait) } }
  else p

/-- Creep takes a delta of pulses (R71). -/
def Tap.creepBy (t : Tap) (delta : Nat) : Tap :=
  let r := t.residue + delta
  let whole := volumeOf r t.factor
  { t with creep := satAdd Config.max32 t.creep whole, residue := r - pulsesFor whole t.factor }

/-- The lamps of taps are set afresh (R49). -/
def Plant.refreshLamps (p : Plant) (l : List Nat) : Plant := l.foldl (fun q i => q.modTap i fun t => { t with lamp := q.lampFor t }) p

/-- A queue event of a station: its product marks, and the lamps of its taps (R39, R49). -/
def Plant.queueEvent (p : Plant) (a : Nat) : Plant :=
  (p.setMarks a (p.queueMarks a)).refreshLamps (p.tapsOfStation a)

end Sys2Proof.Machine
end

