-- ==== Sys2Proof/Machine/Tickets.lean ====
section
/-!
DEFINITION. The Ticket Manager (chapter 2): closes, claims, claim returns, pour results, timers.
-/

namespace Sys2Proof.Machine

/-- A ticket closes with an outcome (R27). A close at the end of a pour writes no TICKET_CLOSE entry. -/
def Plant.closeTicket (p : Plant) (i : Nat) (o : Outcome) (atPour : Bool) : Plant :=
  match p.ticket i with
  | none => p
  | some k =>
    let p1 := p.setQueue k.station ((p.queue k.station).filter (· != i))
    let p2 := if atPour then p1 else p1.record (.ticketClose k.reference k.station (p1.code k.product) k.portion o k.remaining)
    let p3 := p2.countClose o k.product
    (p3.setTicket i none).queueEvent k.station

/-- The ticket closes at a timer's end, with its TICKET_EXPIRED notice (R36, R37). -/
def Plant.expireTicket (p : Plant) (i : Nat) (o : Outcome) : Plant :=
  match p.ticket i with
  | none => p
  | some k => (p.closeTicket i o false).raise .ticketExpired i o.num k.station

/-- The first ticket of a station's queue that a tap of a product may claim (R31). -/
def Plant.claimable (p : Plant) (a product : Nat) : Option Nat :=
  (p.queue a).find? fun i =>
    match p.ticket i with
    | some k => k.waiting && k.product == product
    | none => false

/-- The pour kind of a claim (R31). -/
def Ticket.claimKind (k : Ticket) : PourKind :=
  match k.state with
  | .part => .topup
  | _ => .normal

/-- A waiting ticket becomes CLAIMED by a tap (R31). -/
def Plant.claimTicket (p : Plant) (i tap : Nat) : Plant :=
  match p.ticket i with
  | none => p
  | some k =>
    let was : ClaimedFrom := if k.state == .part then .part else .queued
    (p.setTicket i (some { k with state := .claimed was tap })).queueEvent k.station

/-- A claimed ticket is returned unused (R33). -/
def Plant.returnTicket (p : Plant) (i tap : Nat) : Plant :=
  match p.ticket i with
  | none => p
  | some k =>
    match k.state with
    | .claimed was t =>
      if t != tap then p
      else
        let back : TicketState := match was with | .queued => .queued | .part => .part
        let q := (p.setTicket i (some { k with state := back })).queueEvent k.station
        match was with
        | .queued => if k.validity == .out then q.expireTicket i .voidExpired else q
        | .part => if k.topup == .out then q.expireTicket i .short else q
    | _ => p

/-- The outcome of a ticket at a pour's end (R34). -/
def Plant.pourOutcome (p : Plant) (k : Ticket) (ml : Nat) (c : EndCause) : Outcome :=
  let fromPart : Bool := match k.state with | .claimed .part _ => true | _ => false
  if k.remaining ≤ ml + p.tolerance k.product then .poured
  else if c == .cancelled then .short
  else if p.tkm.window = 0 then .short
  else if fromPart && k.topup == .out then .short
  else .part

/-- The ticket becomes PARTIAL at a pour result (R35). -/
def Plant.partTicket (p : Plant) (i : Nat) (k : Ticket) (ml : Nat) : Plant :=
  let k1 : Ticket := { k with state := .part, remaining := k.remaining - ml }
  let k2 : Ticket :=
    match k.topupDeadline with
    | some _ => k1
    | none =>
      { k1 with
        topupDeadline := some (p.clock + BitVec.ofNat 32 p.tkm.window)
        topup := .running (p.now + p.tkm.window * 1000) }
  (p.setTicket i (some k2)).queueEvent k.station

/-- A pour result is taken by its outcome (R34). -/
def Plant.takeOutcome (p : Plant) (i ml : Nat) (o : Outcome) : Plant :=
  match p.ticket i with
  | none => p
  | some k => if o == .part then p.partTicket i k ml else p.closeTicket i o true

/-- A timer is running and its time has come. -/
def Timer.due (now : Nat) : Timer → Bool
  | .running d => d ≤ now
  | _ => false

/-- A ticket's validity timer runs out (R36). -/
def Plant.validityOut (p : Plant) (i : Nat) : Plant :=
  match p.ticket i with
  | none => p
  | some k =>
    if k.validity.due p.now then
      (if k.state == .queued then p.expireTicket i .voidExpired
       else p.setTicket i (some { k with validity := .out }))
    else p

/-- A ticket's top-up timer runs out (R37). -/
def Plant.topupOut (p : Plant) (i : Nat) : Plant :=
  match p.ticket i with
  | none => p
  | some k =>
    if k.topup.due p.now then
      (if k.state == .part then p.expireTicket i .short
       else p.setTicket i (some { k with topup := .out }))
    else p

/-- The lowest-indexed FREE record (R29). -/
def Plant.freeTicket (p : Plant) : Option Nat := (List.range 160).find? fun i => (p.ticket i).isNone

/-- A ticket is issued into a FREE record (R29). -/
def Plant.issueTicket (p : Plant) (i station product portion validity : Nat) (reference : Word32) : Plant :=
  let k : Ticket :=
    { state := .queued, reference := reference, station := station, product := product, portion := portion,
      remaining := portion, issuedAt := p.clock, expiresAt := p.clock + BitVec.ofNat 32 validity, topupDeadline := none,
      validity := .running (p.now + validity * 1000), topup := .off }
  (((p.setTicket i (some k)).setQueue station (p.queue station ++ [i])).countIssue).queueEvent station

end Sys2Proof.Machine
end

