-- ==== Sys2Proof/Machine/Kegs.lean ====
section
/-!
DEFINITION. Source positions and chains (chapter 1, §1.2 and §1.4): state changes, chain moves, the KEG_CLOSE entry.
-/

namespace Sys2Proof.Machine

/-- Changes a source position entry. -/
def Plant.modSource (p : Plant) (i : Nat) (f : Source → Source) : Plant := p.setSource i (f (p.source i))

/-- The SOURCE_STATE notice of a position as it stands (R3). -/
def Plant.raiseSource (p : Plant) (i : Nat) : Plant :=
  p.raise .sourceState i (p.source i).state.num ((p.source i).line.getD 255)

/-- A position changes state, with its notice (R3). -/
def Plant.setSourceState (p : Plant) (i : Nat) (st : SourceState) : Plant :=
  (p.modSource i fun x => { x with state := st }).raiseSource i

/-- A line's outlet outputs are written afresh (R10). -/
def Plant.refreshOutlet (p : Plant) (l : Nat) : Plant := p.modLine l fun x => { x with outlet := p.outletFor x }

/-- A line without a position in its chain; the positions behind it move up (R5). -/
def Line.without (i : Nat) (x : Line) : Line := { x with chain := x.chain.filter (· != i) }

/-- A position leaves any chain it stands in, and loses its owning line (R3, R5, R12). -/
def Plant.leaveChain (p : Plant) (i : Nat) : Plant :=
  ({ p with lm := { p.lm with lines := p.lm.lines.map (Option.map (Line.without i)) } }).modSource i fun x => { x with line := none }

/-- The KEG_CLOSE entry of a position, with the yield and its notice (R6, R170). -/
def Plant.kegClose (p : Plant) (i : Nat) : Plant :=
  match (p.source i).keg with
  | none => p
  | some k =>
    let y := yieldOf k.nominal k.dispensed
    let q := p.record (.kegClose i k.fillRef (p.code k.product) k.nominal k.dispensed y (earlyTrip k.nominal k.dispensed))
    if yieldDrifts y then q.raise .yieldDrift i y k.product else q

/-- A position becomes VACANT and loses its keg (R5, R13). -/
def Plant.vacate (p : Plant) (i : Nat) : Plant :=
  (p.modSource i fun x =>
    { x with state := .vacant, keg := none, line := none, closePending := false, removed := false }).raiseSource i

/-- A position ends its use, SPENT or FAULT: it leaves its chain, and its KEG_CLOSE entry is written, or made pending while
pours name the position (R6). -/
def Plant.endKeg (p : Plant) (i : Nat) (st : SourceState) : Plant :=
  let q := (p.leaveChain i).setSourceState i st
  if 0 < (q.source i).pours then q.modSource i fun x => { x with closePending := true }
  else q.kegClose i

/-- A LOADED position is unloaded: it leaves its chain, a part-used keg writes its KEG_CLOSE entry, and it becomes VACANT
(R5, R13). -/
def Plant.unloadLoaded (p : Plant) (i : Nat) : Plant :=
  let used : Bool := match (p.source i).keg with | some k => 0 < k.dispensed | none => false
  let q := p.leaveChain i
  (if used then q.kegClose i else q).vacate i

/-- A pour started on the position (R6, R53). -/
def Plant.pourOn (p : Plant) (i : Nat) : Plant := p.modSource i fun x => { x with pours := x.pours + 1 }

/-- A pour on the position has been written (R6, R59): the last one resolves a pending close. -/
def Plant.pourOff (p : Plant) (i : Nat) : Plant :=
  let q := p.modSource i fun x => { x with pours := x.pours - 1 }
  let x := q.source i
  if x.closePending && x.pours = 0 then
    let r := (q.modSource i fun y => { y with closePending := false }).kegClose i
    if x.removed then r.vacate i else r
  else q

/-- The chain head becomes ON_LINE (R17, R24). -/
def Plant.headOnLine (p : Plant) (l : Nat) : Plant :=
  match (p.line l).bind Line.head? with
  | none => p
  | some h => p.setSourceState h .onLine

/-- An ON_LINE head returns to LOADED at the head of its chain (R22, R23, R24). -/
def Plant.headLoaded (p : Plant) (l : Nat) : Plant :=
  match (p.line l).bind p.onLineHead with
  | none => p
  | some h => p.setSourceState h .loaded

/-- A position is unbound (R3): it leaves its chain, loses its keg and is VACANT with no station. -/
def Plant.unbind (p : Plant) (i : Nat) : Plant :=
  let q := p.leaveChain i
  let r := if (q.source i).state == .vacant then q else q.vacate i
  r.setSource i { Source.unbound with pours := (r.source i).pours }

/-- A position is bound to a coupler of a station (R3); LM's count of the pours in progress that name it goes on (R6). -/
def Plant.bind (p : Plant) (i a k : Nat) : Plant :=
  p.setSource i { Source.unbound with bound := some (a, k), pours := (p.source i).pours }

end Sys2Proof.Machine
end

