-- ==== Sys2Proof/Machine/Lines.lean ====
section
/-!
DEFINITION. Lines and changeovers (chapter 1, §1.3 to §1.8): line events, keg ends, attempts, and the requests of CS to LM.
-/

namespace Sys2Proof.Machine

/-- PE takes a line event (R9, R43, R57): it updates its view, ends the POURING pours of a line that leaves SERVING and
DRAINING with the cause the event carries, and recomputes the holds of the line's taps. -/
def Plant.peLineEvent (p : Plant) (l : Nat) (cause : Option EndCause) : Plant :=
  match p.line l with
  | none => p
  | some x =>
    let ends := p.lineOpen l && !x.state.pours
    let q := p.setLineView l ⟨x.state, x.trunk, x.unsupervised⟩
    let r := if ends then (q.tapsOfLine l).foldl (fun r t => r.takeCause t (cause.getD .cancelled)) q else q
    r.refreshTaps (r.tapsOfLine l)

/-- The line event and the LINE_STATE notice of a line as it stands, with its outlet outputs rewritten (R9, R10). -/
def Plant.lineEvent (p : Plant) (l : Nat) (cause : Option EndCause) : Plant :=
  let q := p.refreshOutlet l
  match q.line l with
  | none => q
  | some x => (q.raise .lineState l x.state.num (contentNum x.content)).peLineEvent l cause

/-- A line enters a state with a content, giving its line event (R9). -/
def Plant.enterLine (p : Plant) (l : Nat) (st : LineState) (c : Content) (cause : Option EndCause) : Plant :=
  (p.modLine l fun x => { x with state := st, content := c }).lineEvent l cause

/-- A line enters a state and keeps its content. -/
def Plant.moveLine (p : Plant) (l : Nat) (st : LineState) (cause : Option EndCause) : Plant :=
  (p.modLine l fun x => { x with state := st }).lineEvent l cause

/-- A line's content changes within its state (R9). -/
def Plant.setContent (p : Plant) (l : Nat) (c : Content) : Plant := p.modLine l fun x => { x with content := c }

/-- The changeover record is discarded. -/
def Plant.dropChange (p : Plant) (l : Nat) : Plant := p.modLine l fun x => { x with change := none }

/-- The unsupervised flag changes, given to PE as a line event (R16). -/
def Plant.setUnsupervised (p : Plant) (l : Nat) (b : Bool) : Plant :=
  (p.modLine l fun x => { x with unsupervised := b }).peLineEvent l none

/-- An attempt starts on the chain head (R17). -/
def Plant.startAttempt (p : Plant) (l : Nat) (fromPos : Option Nat) : Plant :=
  match (p.line l).bind Line.head? with
  | none => p
  | some h => (p.headOnLine l).modLine l fun x => { x with change := some ⟨h, fromPos, p.now, none⟩ }

/-- The chain of a line is empty. -/
def Plant.chainEmpty (p : Plant) (l : Nat) : Bool := ((p.line l).bind Line.head?).isNone

/-- After a keg's end the line goes on to its next keg, or enters DRY with content GAS (R14, R19, R21). The line event is given
when the state changes. -/
def Plant.nextKeg (p : Plant) (l : Nat) (go : Bool) (fromPos : Option Nat) (cause : Option EndCause) : Plant :=
  let before := (p.line l).map (·.state)
  if go && !p.chainEmpty l then
    let q := p.startAttempt l fromPos
    if before == some .changeover then (q.setContent l .gas).refreshOutlet l else q.enterLine l .changeover .gas cause
  else (p.dropChange l).enterLine l .dry .gas cause

/-- The CHANGEOVER entry and the CHANGEOVER_RESULT notice of an attempt (R18, R19, R20). -/
def Plant.changeResult (p : Plant) (l : Nat) (c : Changeover) (r : ChangeResult) : Plant :=
  (p.record (.changeover l c.fromPos (some c.position) r)).raise .changeoverResult l r.num c.position

/-- A keg end on a SERVING or DRAINING line outside a re-trip window (R14). -/
def Plant.kegEndServing (p : Plant) (l : Nat) (x : Line) (cause : EndCause) : Plant :=
  let q := p.setContent l .gas
  match p.onLineHead x with
  | none => (q.dropChange l).nextKeg l (x.auto && !p.stopped) none (some cause)
  | some h => ((q.dropChange l).endKeg h .spent).nextKeg l (x.auto && !p.stopped) (some h) (some cause)

/-- An attempt fails, by the prime timeout or by a re-trip (R19). -/
def Plant.failAttempt (p : Plant) (l : Nat) (c : Changeover) (r : ChangeResult) (cause : Option EndCause) : Plant :=
  (((p.endKeg c.position .fault).changeResult l c r).dropChange l).nextKeg l (!p.stopped) (some c.position) cause

/-- The re-trip window of a record is open (R18). -/
def Changeover.windowOpen (c : Changeover) (now : Nat) : Bool :=
  match c.primed with
  | none => false
  | some t => now ≤ t + Config.retripWindow

/-- A keg end on a SERVING or DRAINING line: a re-trip inside the window (R19), else R14. -/
def Plant.kegEndOpen (p : Plant) (l : Nat) (x : Line) (cause : EndCause) : Plant :=
  match x.change with
  | some c => if c.windowOpen p.now then p.failAttempt l c .failedRetrip (some cause) else p.kegEndServing l x cause
  | none => p.kegEndServing l x cause

/-- An attempt primes (R18). -/
def Plant.primeAttempt (p : Plant) (l : Nat) (c : Changeover) : Plant :=
  let q := p.modLine l fun x =>
    { x with content := .beer, state := .serving, change := some { c with primed := some p.now } }
  ((q.refreshOutlet l).changeResult l c .primed).lineEvent l none

/-- An attempt is interrupted (R20): by a stop or a station loss the position tried returns to LOADED at the chain's head; by
its removal it becomes SPENT. -/
def Plant.interruptAttempt (p : Plant) (l : Nat) (removal : Bool) : Plant :=
  match (p.line l).bind (·.change) with
  | none => p
  | some c =>
    let q := (p.changeResult l c .interrupted).dropChange l
    let r := if removal then q.endKeg c.position .spent else q.setSourceState c.position .loaded
    r.enterLine l .dry .gas none

/-- The line is in CHANGEOVER. -/
def Plant.changing (p : Plant) (l : Nat) : Bool := (p.line l).map (·.state) == some .changeover

/-- LM at stop onset: every attempt under way is interrupted (R20), in ascending line number, so their CHANGEOVER entries take their seqs
in that order (DESIGN CHOICE, log 89). -/
def Plant.lmStop (p : Plant) : Plant :=
  (List.range 48).foldl (fun q l => if q.changing l then q.interruptAttempt l false else q) p

/-! ### Requests of CS to LM (R23, R24) -/

/-- Take for draining (R23). -/
def Plant.takeForDraining (p : Plant) (l : Nat) : Plant :=
  match p.line l with
  | some x => if x.state == .serving then p.moveLine l .draining none else p
  | none => p

/-- The line may be taken for cleaning (R23, R137). -/
def LineState.takeable : LineState → Bool
  | .draining | .dry | .locked | .outOfService => true
  | _ => false

/-- Take for cleaning (R23). -/
def Plant.takeForCleaning (p : Plant) (l : Nat) : Plant :=
  match p.line l with
  | some x => if x.state.takeable then ((p.dropChange l).headLoaded l).moveLine l .cleaning none else p
  | none => p

/-- The line is in CLEANING. -/
def Plant.lineCleaning (p : Plant) (l : Nat) : Bool := (p.line l).map (·.state) == some .cleaning

/-- The job id of a line is cleared (R24, R148). -/
def Plant.clearJob (p : Plant) (l : Nat) : Plant := p.modLine l fun x => { x with job := none }

/-- Set content (R24). -/
def Plant.csSetContent (p : Plant) (l : Nat) (c : Content) : Plant := if p.lineCleaning l then p.setContent l c else p

/-- Select head (R24). -/
def Plant.selectHead (p : Plant) (l : Nat) : Plant := if p.lineCleaning l then (p.headOnLine l).refreshOutlet l else p

/-- Return to service (R24). -/
def Plant.returnToService (p : Plant) (l : Nat) : Plant :=
  if p.lineCleaning l then (p.clearJob l).enterLine l .serving .beer none else p

/-- Lock (R24). -/
def Plant.lockLine (p : Plant) (l : Nat) (c : Content) : Plant :=
  if p.lineCleaning l then ((p.headLoaded l).clearJob l).enterLine l .locked c none else p

/-- Release (R24): a CLEANING line is set by its content, a DRAINING line returns to SERVING, any other keeps its state. -/
def Plant.releaseLine (p : Plant) (l : Nat) : Plant :=
  match p.line l with
  | none => p
  | some x =>
    let q := p.clearJob l
    match x.state, x.content with
    | .cleaning, .beer =>
      if p.chainEmpty l then q.enterLine l .dry .gas none else (q.headOnLine l).enterLine l .serving .beer none
    | .cleaning, .gas => q.moveLine l .dry none
    | .cleaning, _ => q.moveLine l .locked none
    | .draining, _ => q.moveLine l .serving none
    | _, _ => q

end Sys2Proof.Machine
end

