-- ==== Sys2Proof/Machine/Cooling.lean ====
section
/-!
DEFINITION. The Cooling Controller (chapter 6): surge and gate, cooling states, stages, trunks, the cooling station's status.
-/

namespace Sys2Proof.Machine

/-- The number of an ON or OFF command: "ON or OFF" numbers ON as 0 (R112, R194; log 34). -/
def commandNum (on : Bool) : Nat := if on then 0 else 1

/-- Changes the cooling controller's own fields. -/
def Plant.modCc (p : Plant) (f : Cc → Cc) : Plant := { p with cc := f p.cc }

/-- The gate is recomputed (R127). CS takes its new value at the end of the arrival (log 10). -/
def Cc.withGate (c : Cc) : Cc := { c with gate := c.gateFor }

/-- The effective setpoint and the gate are recomputed (R107, R127). -/
def Cc.withEffective (c : Cc) : Cc := ({ c with effective := c.effectiveFor }).withGate

/-- Surge is judged (R120); a change recomputes the effective setpoint and the gate. -/
def Cc.judgeSurge (c : Cc) : Cc :=
  if c.surgeFor == c.surge then c else ({ c with surge := c.surgeFor }).withEffective

/-- A completed pour's volume joins the pour-load window (R118). -/
def Cc.addLoad (c : Cc) (now ml : Nat) : Cc :=
  let w := if c.window.length < Config.windowCapacity then c.window ++ [(now, ml)]
    else c.window.dropLast ++ (match c.window.getLast? with | some (t, v) => [(t, v + ml)] | none => [])
  ({ c with window := w }).judgeSurge

/-- Pairs whose 60 s are over leave the window from its head (R118). -/
def Cc.ageOut (c : Cc) (now : Nat) : Cc :=
  ({ c with window := c.window.dropWhile fun e => e.1 + Config.windowAge ≤ now }).judgeSurge

/-- The head pair of the window is due to leave it. -/
def Cc.ageDue (c : Cc) (now : Nat) : Bool :=
  match c.window with
  | [] => false
  | e :: _ => e.1 + Config.windowAge ≤ now

/-! ### Cooling states (R109, R110) -/

/-- The cooling state changes: mode field, notice, gate (R109). -/
def Plant.setCooling (p : Plant) (st : CoolingState) (cause : CoolingCause) : Plant :=
  (p.modCc fun c => ({ c with state := st, remote := st != CoolingState.off }).withGate).raise
    .coolingState 0 st.num cause.num

/-- The state becomes DEGRADED (R110). -/
def Plant.degrade (p : Plant) (why : DegradeCause) : Plant :=
  (p.modCc fun c => { c with cause := some why }).setCooling .degraded
    (match why with | .bathHigh => .bathHigh | .allTripped => .allTripped)

/-- RUNNING is entered, or DEGRADED when all three stages are tripped (R109). -/
def Plant.enterRunning (p : Plant) (cause : CoolingCause) : Plant :=
  if p.cc.allTripped then p.degrade .allTripped
  else (p.modCc fun c => { c with cause := none, degradeEnd := none }).setCooling .running cause

/-- MSC tells CC of GO_LIVE (R109). -/
def Plant.coolingLive (p : Plant) : Plant :=
  match p.addressOf .cooling with
  | some a => if p.active a then p.enterRunning .start else p
  | none => p

/-- The loss of the cooling station (R109, R124, R126). -/
def Plant.coolingLoss (p : Plant) : Plant :=
  let q := p.modCc fun c =>
    { c with graceEnd := some (p.now + Config.graceTime), trunks := c.trunks.map fun t => { t with pumpEnd := none } }
  if q.live && (q.cc.state == .running || q.cc.state == .degraded) then
    (q.modCc fun c => { c with cause := none, degradeEnd := none }).setCooling .unsupervised .lost
  else q

/-! ### Stages (R112 to R116) -/

/-- Some stage is commanded ON. -/
def Cc.anyOn (c : Cc) : Bool := c.stages.toList.any (·.command)

/-- The stage order list rotates when the last stage has gone OFF (R115). -/
def Cc.rotated (c : Cc) : Cc :=
  if c.anyOn then c
  else { c with order := match c.order with | [] => [] | h :: rest => rest ++ [h] }

/-- Stage entry of the controller. -/
def Cc.stage (c : Cc) (i : Nat) : Stage := (c.stages[i]?).getD ⟨false, none, none, false⟩

/-- Writes a stage entry. -/
def Cc.setStage (c : Cc) (i : Nat) (s : Stage) : Cc := { c with stages := c.stages.setIfInBounds i s }

/-- A trip input delivered as TRIPPED (R116). -/
def Plant.tripStage (p : Plant) (i : Nat) : Plant :=
  let s := p.cc.stage i
  if s.tripped then p
  else
    let c := p.cc.setStage i { s with tripped := true, command := false, lastChange := if s.command then some p.now else s.lastChange }
    let c := if s.command then c.rotated else c
    let q := ({ p with cc := c }).raise .stageTrip i (commandNum s.command) ((c.stages.toList.filter Stage.tripped).length)
    if c.allTripped then
      (match c.state with
       | .running => q.degrade .allTripped
       | .degraded => q.modCc fun c => { c with cause := some .allTripped }
       | _ => q)
    else q

/-- The candidate for starting (R113). -/
def Cc.startCandidate (c : Cc) : Option Nat := c.order.find? fun i => !(c.stage i).command && !(c.stage i).tripped

/-- A stage starts when its minimum off time and the step delay are met (R113). -/
def Cc.startStage (c : Cc) (now : Nat) : Cc :=
  match c.startCandidate with
  | none => c
  | some i =>
    let s := c.stage i
    if passed now c.minOff s.lastChange && passed now Config.stepDelay c.lastStart then
      { c.setStage i { s with command := true, lastChange := some now } with lastStart := some now }
    else c

/-- The candidate for stopping (R114). -/
def Cc.stopCandidate (c : Cc) : Option Nat := c.order.reverse.find? fun i => (c.stage i).command

/-- A stage stops when its minimum on time is met (R114). -/
def Cc.stopStage (c : Cc) (now : Nat) : Cc :=
  match c.stopCandidate with
  | none => c
  | some i =>
    let s := c.stage i
    if passed now c.minOn s.lastChange then (c.setStage i { s with command := false, lastChange := some now }).rotated
    else c

/-- Stages are judged at a bath reading (R111, R113, R114). -/
def Cc.judgeStages (c : Cc) (now : Nat) : Cc :=
  if (c.state == .running || c.state == .degraded) && !c.probeFault then
    match c.lastBath with
    | none => c
    | some t =>
      if c.startLimit < t then c.startStage now
      else if t < c.stopLimit then c.stopStage now
      else c
  else c

/-- The bath temperature is taken (R111). -/
def Cc.takeBath (c : Cc) (t : Int) : Cc :=
  if inProbeRange t then { c with lastBath := some t, probeFault := false } else { c with probeFault := true }

/-- The degrade limit is judged in RUNNING, recovery in DEGRADED (R110). -/
def Plant.judgeDegrade (p : Plant) : Plant :=
  match p.cc.state with
  | .running =>
    let high : Bool := p.cc.probeFault || (match p.cc.lastBath with | some t => p.cc.degradeLimit < t | none => false)
    p.modCc fun c =>
      { c with degradeEnd := if high then some (c.degradeEnd.getD (p.now + Config.degradeTime)) else none }
  | .degraded =>
    if p.cc.coldEnough && !p.cc.probeFault && !p.cc.allTripped then p.enterRunning .recovered else p
  | _ => p

/-! ### Trunks (R121 to R126) -/

/-- PE takes a trunk event (R62): view, holds, worst classes. -/
def Plant.peTrunkEvent (p : Plant) (i : Nat) (st : TrunkState) : Plant :=
  let taps := (List.range 96).filter fun t =>
    match (p.tap t).line.bind p.lineView with
    | some v => v.trunk = i
    | none => false
  let q := p.setTrunkView i st
  taps.foldl (fun r t => r.changeTap t fun x => { x with pour := x.pour.map fun u => { u with worst := u.worst.worse (tempClass st) } }) q

/-- Changes a trunk entry. -/
def Plant.modTrunk (p : Plant) (i : Nat) (f : Trunk → Trunk) : Plant := p.setTrunk i (f (p.trunk i))

/-- A trunk's state changes: the trunk event to PE and CS, and the TRUNK_STATE notice (R123). A state left as it was gives
neither. -/
def Plant.setTrunkState (p : Plant) (i : Nat) (st : TrunkState) (cause : TrunkCause) : Plant :=
  if (p.trunk i).state == st then p
  else
    let q := (p.modTrunk i fun t => { t with state := st }).raise .trunkState i st.num cause.num
    let r := q.peTrunkEvent i st
    { r with cs := { r.cs with jobs := r.cs.jobs.map fun j => if j.trunk = i then { j with trunkState := st } else j } }

/-- The pump feedback of a trunk in use (R124). -/
def Plant.takePump (p : Plant) (i : Nat) (running : Bool) : Plant :=
  p.modTrunk i fun t =>
    let u : Trunk := { t with feedback := some running }
    if p.live && !t.pumpFault then
      { u with pumpEnd := if running then none else some (t.pumpEnd.getD (p.now + Config.pumpTime)) }
    else u

/-- The return temperature of a trunk in use (R122). -/
def Plant.takeReturn (p : Plant) (i : Nat) (t : Int) : Plant :=
  if inProbeRange t then
    let x := p.trunk i
    (p.setTrunk i { x with temperature := some t }).setTrunkState i (trunkJudge x.state x.warm x.hot t) .temperature
  else p.setTrunkState i .probeFault .probe

/-- The trunk inputs of a cooling status, ascending (R111). A trunk not in use is judged by nothing. -/
def Plant.takeTrunks (p : Plant) (returns : Vector Int 8) (pumps : Vector Bool 8) : Plant :=
  (List.range 8).foldl (fun q i =>
    if (q.trunk i).inUse then (q.takePump i (pumps.toList.getD i false)).takeReturn i (returns.toList.getD i 0) else q) p

/-- CC takes a cooling status (R111). -/
def Plant.coolingStatus (p : Plant) (bath : Int) (running tripped : Vector Bool 3) (returns : Vector Int 8)
    (pumps : Vector Bool 8) : Plant :=
  let p1 := (List.range 3).foldl (fun q i => if tripped.toList.getD i false then q.tripStage i else q) p
  let p2 := p1.modCc fun c => { c with stages := Vector.ofFn fun i => { c.stages.get i with running := some (running.get i) } }
  let p3 := p2.takeTrunks returns pumps
  let p4 := (p3.modCc fun c => c.takeBath bath).judgeDegrade
  p4.modCc fun c => (c.judgeStages p4.now).withGate

/-- The join report of the cooling station, then its initial values (R109, R126). -/
def Plant.coolingJoin (p : Plant) : Plant :=
  let q := p.modCc fun c => { c with graceEnd := none }
  if q.live then
    let r := q.modCc fun c => { c with joinedOnce := true }
    if r.cc.state == .off || r.cc.state == .unsupervised then r.enterRunning .joined else r
  else q

/-- The grace timer runs out (R126). -/
def Plant.graceOut (p : Plant) : Plant :=
  (List.range 8).foldl (fun q i => if (q.trunk i).inUse then q.setTrunkState i .unknown .graceEnd else q)
    (p.modCc fun c => { c with graceEnd := none })

/-- A trunk's pump timer runs out (R124). -/
def Plant.pumpOut (p : Plant) (i : Nat) : Plant :=
  (p.modTrunk i fun t => { t with pumpFault := true, pumpEnd := none }).raise .trunkState i (p.trunk i).state.num TrunkCause.pumpFault.num

/-- The degrade timer runs out (R110). -/
def Plant.degradeOut (p : Plant) : Plant :=
  let q := p.modCc fun c => { c with degradeEnd := none }
  if q.cc.state == .running then q.degrade .bathHigh else q

end Sys2Proof.Machine
end

