-- ==== Sys2Proof/Machine/Cleaning.lean ====
section
/-!
DEFINITION. The Cleaning Sequencer (chapter 7): grants, draining, caps, steps, pause, beer return, abort and abort flush. A job
is named by its id. What CS judges from the state of lines, taps, gate and tanks is judged at the end of an arrival, by
`csSettle` (log 10).
-/

namespace Sys2Proof.Machine

/-! ### Requests of CS to PE (R65, R66) -/

/-- Taps of lines, line by line. -/
def Plant.tapsOfLines (p : Plant) (lines : List Nat) : List Nat := lines.flatMap p.tapsOfLine

/-- Take for cleaning of a line's taps (R65): nothing while one of them is POURING or ENDING. A tap still CLEANING after a release, its
cap FITTED, is taken again and its pending release dropped (DESIGN CHOICE, log 85). -/
def Plant.peTake (p : Plant) (l : Nat) : Plant :=
  let taps := p.tapsOfLine l
  if taps.any fun t => (p.tap t).state == .pouring || (p.tap t).state == .ending then p
  else taps.foldl (fun q t => q.changeTap t fun x => { x with cleaning := true, released := false }) p

/-- Release of a line's taps (R65): a CLEANING tap leaves at once unless its cap is FITTED. -/
def Plant.peRelease (p : Plant) (l : Nat) : Plant :=
  ((p.tapsOfLine l).filter fun t => (p.tap t).state == .cleaning).foldl
    (fun q t => q.changeTap t fun x =>
      if x.capImage == some true then { x with released := true } else { x with cleaning := false, released := false }) p

/-- Preempt of a line (R66). -/
def Plant.pePreempt (p : Plant) (l : Nat) : Plant := (p.tapsOfLine l).foldl (fun q t => q.takeCause t .cleanPreempt) p

/-- CS writes flow requests, and PE rewrites the valves of the lines' taps (R66). -/
def Plant.setFlows (p : Plant) (lines : List Nat) (on : Bool) : Plant :=
  lines.foldl (fun q l => (q.setFlow l on).refreshTaps (q.tapsOfLine l)) p

/-! ### Circuits and job records -/

/-- Changes a circuit entry. -/
def Plant.modCircuit (p : Plant) (c : Nat) (f : Circuit → Circuit) : Plant := p.setCircuit c (f (p.circuit c))

/-- CS writes pump, medium and route of a circuit (Table 7-5). -/
def Plant.writeOut (p : Plant) (c : Nat) (pump : Bool) (m : MediumOut) (drain : Bool) : Plant :=
  p.modCircuit c fun x => { x with out := { x.out with pump := pump, medium := m, drain := drain } }

/-- CS writes the threshold of a circuit (Table 7-5). -/
def Plant.writeThreshold (p : Plant) (c threshold : Nat) : Plant :=
  p.modCircuit c fun x => { x with out := { x.out with threshold := threshold } }

/-- A circuit is connected to a trunk and serves a job (R131, R136). -/
def Plant.connect (p : Plant) (c trunk id : Nat) : Plant :=
  (p.modCircuit c fun x => { x with state := .busy, job := some id, out := { x.out with trunk := some trunk } }).modTrunk trunk
    fun t => { t with circuit := some c }

/-- A circuit's outputs return to their defaults and its trunk is disconnected; it is FREE, or FAULT with a cause (R148, R151). -/
def Plant.disconnect (p : Plant) (c : Nat) (fault : Option FaultCause) : Plant :=
  let q :=
    match (p.circuit c).out.trunk with
    | some t => p.modTrunk t fun x => { x with circuit := none }
    | none => p
  q.modCircuit c fun x =>
    { x with state := if fault.isSome then .fault else .free, job := none, out := CircuitOut.idle, faultCause := fault }

/-- A job enters a state, with its JOB_STATE notice (R133). -/
def Plant.setJobState (p : Plant) (id : Nat) (st : JobState) (second : Nat) : Plant :=
  (p.modJob id fun j => { j with state := st }).raise .jobState id st.num second

/-- A line leaves the lines still in the job (R145). -/
def Plant.dropLine (p : Plant) (id l : Nat) : Plant :=
  p.modJob id fun j => { j with remaining := j.remaining.filter (· != l) }

/-- The job finishes (R148): job ids are cleared, CLEAN_RUN is asked for, the last state's notice is raised, and the record is
discarded. -/
def Plant.finishJob (p : Plant) (j : Job) (st : JobState) (cause : Option AbortCause) (f : FlushResult) : Plant :=
  let held := j.lines.filter fun l => (p.line l).bind (·.job) == some j.id
  let p1 := held.foldl Plant.clearJob p
  let contents := j.lines.map fun l => (l, (p1.line l).map (·.content))
  let p2 := p1.record (.cleanRun j.id j.trunk j.programme cause f contents)
  let p3 := p2.setJobState j.id st (match cause with | some c => c.num | none => 0)
  { p3 with cs := { p3.cs with jobs := p3.cs.jobs.filter fun x => x.id != j.id } }

/-- The job completes (R148). -/
def Plant.completeJob (p : Plant) (id : Nat) : Plant :=
  match p.job id with
  | none => p
  | some j => ((match j.circuit with | some c => p.disconnect c none | none => p)).finishJob j .complete none .notRun

/-! ### Abort and abort flush (R149 to R151) -/

/-- The taps of the cap set whose line is still in the job (R144), by the line a tap has now (log 69). -/
def Plant.capTaps (p : Plant) (j : Job) : List Nat :=
  j.capSet.filter fun t => match (p.tap t).line with | some l => j.remaining.contains l | none => false

/-- Every tap of the cap set still in the job shows FITTED. -/
def Plant.capsFitted (p : Plant) (j : Job) : Bool := (p.capTaps j).all fun t => (p.tap t).capImage == some true

/-- The cellar station of a line. -/
def Plant.stationOfLine (p : Plant) (l : Nat) : Option Nat := (p.line l).map (·.station)

/-- The station of a tap. -/
def Plant.stationOfTap (p : Plant) (t : Nat) : Option Nat := (p.tap t).station.map (·.1)

/-- The cleaning station is ACTIVE. -/
def Plant.cleaningActive (p : Plant) : Bool :=
  match p.addressOf .cleaning with
  | some a => p.active a
  | none => false

/-- The stations a job uses beside the cleaning station: the cellar stations of the lines still in it and the tap stations of
its cap set, or of its lines' taps while DRAINING (R149; log 30). -/
def Plant.jobStations (p : Plant) (j : Job) : List Nat :=
  j.remaining.filterMap p.stationOfLine
    ++ (if j.state == .draining then p.tapsOfLines j.remaining else j.capSet).filterMap p.stationOfTap

/-- Every station the job uses is ACTIVE (R150). -/
def Plant.stationsActive (p : Plant) (j : Job) : Bool := p.cleaningActive && (p.jobStations j).all p.active

/-- The first condition for an abort flush that does not hold (R150). -/
def Plant.flushBar (p : Plant) (j : Job) : Option FaultCause :=
  if !p.stationsActive j then some .stationLost
  else if p.stopped then some .stop
  else if !p.cs.tankOk .water then some .tankLow
  else if !p.capsFitted j then some .cap
  else none

/-- The lines still in the job are locked with UNPROVEN and their taps released (R150, R151), every flow request off (log 78). -/
def Plant.lockAll (p : Plant) (j : Job) : Plant :=
  let q := j.remaining.foldl (fun q l => q.lockLine l .unproven) (p.setFlows j.lines false)
  j.remaining.foldl Plant.peRelease q

/-- A flush fails, or cannot start (R151). -/
def Plant.flushFail (p : Plant) (id : Nat) (why : FaultCause) : Plant :=
  match p.job id with
  | none => p
  | some j =>
    let q := (p.modJob id fun x => { x with flushFailed := true, timer := none }).lockAll j
    let r :=
      match j.circuit with
      | some c => (q.disconnect c (some why)).raise .circuitFault c id why.num
      | none => q
    r.finishJob j .aborted j.abortCause .failed

/-- A flush ends (R150). -/
def Plant.flushEnd (p : Plant) (id : Nat) : Plant :=
  match p.job id with
  | none => p
  | some j =>
    let q := (p.modJob id fun x => { x with timer := none }).lockAll j
    (match j.circuit with | some c => q.disconnect c none | none => q).finishJob j .aborted j.abortCause .performed

/-- The present return meter count of the job's circuit. -/
def Plant.meterOf (p : Plant) (j : Job) : Option Count24 := j.circuit.bind fun c => (p.circuit c).meter

/-- The abort flush starts, or fails at once (R150). -/
def Plant.flushStart (p : Plant) (id : Nat) : Plant :=
  match p.job id with
  | none => p
  | some j =>
    match p.flushBar j with
    | some why => p.flushFail id why
    | none =>
      let q := p.setJobState id .flushing 0
      let r := match j.circuit with | some c => q.writeOut c true (some .water) true | none => q
      (r.setFlows j.remaining true).modJob id fun x =>
        { x with returnLine := none, base := p.meterOf j, timer := some (.flush, p.now + Config.flushLimit) }

/-- The PURGE entry of a line's beer return, from a head (R146). The volume counts for the source's keg, whichever it was when
the return ran. -/
def Plant.purge (p : Plant) (j : Job) (l : Nat) (head : Option Nat) : Plant :=
  match p.metered j with
  | none => p
  | some ml =>
    if ml = 0 then p
    else
      let product := (p.line l).map (·.product)
      let q := p.record (.purge l head (product.bind p.code) ml)
      if p.room then (q.addSource head ml p.now).addProduct product .purge ml 0 else q

/-- The head of a line, if ON_LINE. -/
def Plant.headOf (p : Plant) (l : Nat) : Option Nat := (p.line l).bind p.onLineHead

/-- A line still in an aborted job is settled by its state and content (R149). -/
def Plant.settleLine (p : Plant) (proof : Bool) (l : Nat) : Plant :=
  match p.line l with
  | none => p
  | some x =>
    if x.state == .cleaning then
      if proof then p.lockLine l .water
      else match x.content with
        | .beer | .gas => p.releaseLine l
        | .water => p.lockLine l .water
        | .cleaner | .unproven => p.lockLine l .unproven
    else p.releaseLine l

/-- A job holding a circuit is aborted (R149), every flow request off as in a pause (DESIGN CHOICE, log 78). -/
def Plant.abortJob (p : Plant) (id : Nat) (cause : AbortCause) : Plant :=
  match p.job id with
  | none => p
  | some j =>
    let q := (p.modJob id fun x => { x with abortCause := some cause, step := none, pausedFrom := none, timer := none, phase := none, kept := none, keptPhase := none }).setFlows
      j.lines false
    if j.chemical && !j.proof then q.flushStart id
    else
      let head := j.returnLine.bind q.headOf
      let r := j.remaining.foldl (fun r l => r.settleLine j.proof l) q
      let s := j.remaining.foldl Plant.peRelease r
      let t := match j.returnLine with | some l => s.purge j l head | none => s
      (match j.circuit with | some c => t.disconnect c none | none => t).finishJob j .aborted (some cause) .notRun

/-- An arrival that ends a job holding a circuit: a flush fails with one cause, any other activity is aborted with another. -/
def Plant.endJob (p : Plant) (id : Nat) (cause : AbortCause) (why : FaultCause) : Plant :=
  match p.job id with
  | none => p
  | some j => if j.state == .flushing then p.flushFail id why else p.abortJob id cause

/-! ### Beer return (R145 to R147) -/

/-- A line's return starts at its ON_LINE head (R145). -/
def Plant.beginReturn (p : Plant) (j : Job) (l : Nat) : Plant :=
  let threshold := ((p.line l).bind fun x => p.product x.product).map (·.threshold)
  let q :=
    match j.circuit with
    | some c => (p.writeOut c false none true).writeThreshold c (threshold.getD 100)
    | none => p
  let r := (q.setFlows (j.remaining.filter (· != l)) false).setFlows [l] true
  (r.modJob j.id fun x =>
    { x with returnLine := some l, base := p.meterOf j, consecutive := 0, sampled := p.now,
             timer := some (.beerReturn, p.now + Config.returnTime) }).raise .jobStep j.id 255 l

/-- The lines left are returned from the first on (R145, R147, R148): a line of a return-only job that does not hold WATER is
locked UNPROVEN (R143), its flow request off (log 48), its taps released by PE and the line out of the job (DESIGN CHOICE, log 87); a line
without a head is locked WATER, the next with a head starts; with none left the job completes. -/
def Plant.returnFrom (id : Nat) : List Nat → Plant → Plant
  | [], p => p.completeJob id
  | l :: rest, p =>
    match p.job id with
    | none => p
    | some j =>
      let returnOnly : Bool := (p.stepsOf j.programme).isEmpty
      if returnOnly && (p.line l).map (·.content) != some .water then
        Plant.returnFrom id rest ((((p.setFlows [l] false).lockLine l .unproven).peRelease l).dropLine id l)
      else
        let q := p.selectHead l
        match q.headOf l with
        | some _ => q.beginReturn j l
        | none => Plant.returnFrom id rest ((((q.setFlows [l] false).lockLine l .water).peRelease l).dropLine id l)

/-- The next line's return starts (R145). -/
def Plant.nextReturn (p : Plant) (id : Nat) : Plant :=
  match p.job id with
  | none => p
  | some j => Plant.returnFrom id j.remaining p

/-- The job enters BEER_RETURN and the first line's return starts (R139, R140). -/
def Plant.enterReturn (p : Plant) (id : Nat) : Plant :=
  ((p.modJob id fun j => { j with step := none, base := none, timer := none, phase := none }).setJobState id .beerReturn 0).nextReturn id

/-- The line under return is finished: it leaves the job, and the job goes on unless it is paused (log 35). -/
def Plant.endReturn (p : Plant) (id l : Nat) : Plant :=
  let q := (((p.setFlows [l] false).peRelease l).modJob id fun j =>
    { j with returnLine := none, base := none, timer := if j.state == .paused then j.timer else none, kept := none }).dropLine id l
  match q.job id with
  | none => q
  | some j => if j.state == .beerReturn then q.nextReturn id else q

/-- A line returns to service (R145). -/
def Plant.lineReturned (p : Plant) (j : Job) (l : Nat) : Plant :=
  ((p.purge j l (p.headOf l)).returnToService l).endReturn j.id l

/-- A line's return ends with a lock (R147). -/
def Plant.lineLocked (p : Plant) (j : Job) (l : Nat) (head : Option Nat) : Plant :=
  ((p.purge j l head).lockLine l .water).endReturn j.id l

/-- LM reports that the head of a line under return has changed, or that none is left (R147). -/
def Plant.headChanged (p : Plant) (l old : Nat) : Plant :=
  match p.cs.jobs.find? fun j => j.returnLine == some l with
  | none => p
  | some j =>
    match p.headOf l with
    | none => p.lineLocked j l (some old)
    | some _ => (p.purge j l (some old)).modJob j.id fun x => { x with base := p.meterOf j, consecutive := 0 }

/-! ### Steps (R140 to R143) -/

/-- The content of a job's lines follows the step's medium (R140). -/
def Plant.stepContent (p : Plant) (lines : List Nat) : Option Medium → Plant
  | none => p
  | some .water => lines.foldl (fun q l =>
      match q.line l with
      | some x => if x.content == .beer || x.content == .gas then q.csSetContent l .water else q
      | none => q) p
  | some _ => lines.foldl (fun q l => q.csSetContent l .cleaner) p

/-- Outputs and flow requests of a step (Table 7-5); a PULSE step names its phase. -/
def Plant.stepOutputs (p : Plant) (j : Job) (s : Step) (on : Bool) : Plant :=
  match j.circuit with
  | none => p
  | some c =>
    match s with
    | .push m _ => (p.writeOut c true (some m) true).setFlows j.remaining true
    | .recirculate m _ => (p.writeOut c true (some m) false).setFlows j.remaining true
    | .soak _ => (p.writeOut c false none false).setFlows j.remaining false
    | .pulse m _ => (p.writeOut c on (some m) false).setFlows j.remaining on
    | .prove m threshold _ _ => ((p.writeOut c true (some m) true).writeThreshold c threshold).setFlows j.remaining true

/-- The timer of a step (R140). -/
def Step.timer (now : Nat) : Step → JobTimer × Nat
  | .push _ _ => (.push, now + Config.pushLimit)
  | .recirculate _ d => (.duration, now + d * 1000)
  | .soak d => (.duration, now + d * 1000)
  | .pulse _ d => (.duration, now + d * 1000)
  | .prove _ _ limit _ => (.prove, now + limit * 1000)

/-- The step takes a drain-meter base (R140). -/
def Step.meters : Step → Bool
  | .push _ _ | .prove _ _ _ _ => true
  | _ => false

/-- The PULSE phase at a step's start (R142). -/
def Step.firstPhase (now : Nat) : Step → Option (Bool × Nat)
  | .pulse _ _ => some (true, now + Config.pulsePhase)
  | _ => none

/-- A step starts (R140). A step that names a medium whose tank is LOW or unknown does not run (R149). -/
def Plant.startStep (p : Plant) (id k : Nat) : Plant :=
  match p.job id with
  | none => p
  | some j =>
    match (p.stepsOf j.programme)[k]? with
    | none => p
    | some s =>
      if (match s.medium? with | some m => !p.cs.tankOk m | none => false) then p.abortJob id .tankLow
      else
        let q := p.stepOutputs j s true
        let r := q.modJob id fun x =>
          { x with step := some k, base := if s.meters then p.meterOf j else none, timer := some (s.timer p.now),
                   phase := s.firstPhase p.now, sampled := p.now, consecutive := 0,
                   chemical := x.chemical || s.chemical, proof := x.proof && !s.chemical }
        (r.raise .jobStep id k j.repeats).stepContent j.remaining s.medium?

/-- A step has ended by its own rule: the next step starts, or beer return (R140). -/
def Plant.advance (p : Plant) (id : Nat) : Plant :=
  match p.job id with
  | none => p
  | some j =>
    match j.step with
    | none => p
    | some k => if k + 1 < (p.stepsOf j.programme).length then p.startStep id (k + 1) else p.enterReturn id

/-- The step a job runs. -/
def Plant.currentStep (p : Plant) (j : Job) : Option Step := j.step.bind fun k => (p.stepsOf j.programme)[k]?

/-- The medium whose tank is checked while a step runs (R149): the step's, or for SOAK that of the nearest step before it that
names one. -/
def Plant.checkedMedium (p : Plant) (j : Job) : Option Medium :=
  match j.step with
  | none => none
  | some k => (((p.stepsOf j.programme).take (k + 1)).filterMap Step.medium?).getLast?

/-- A WATER PROVE has passed (R143). -/
def Plant.provePassed (p : Plant) (j : Job) (m : Medium) : Plant :=
  let q := p.modJob j.id fun x => { x with repeats := 0, proof := x.proof || m == .water, timer := none }
  let r := if m == .water then j.remaining.foldl (fun r l => r.csSetContent l .water) q else q
  r.advance j.id

/-- A PROVE has failed (R143). -/
def Plant.proveFailed (p : Plant) (j : Job) (onFail : Option Nat) : Plant :=
  match onFail, j.step with
  | some n, some (k + 1) =>
    if j.repeats < n then (p.modJob j.id fun x => { x with repeats := x.repeats + 1, timer := none }).startStep j.id k
    else p.abortJob j.id .proofFailed
  | _, _ => p.abortJob j.id .proofFailed

/-- The comparator sample of a job, if this arrival takes one (R143). -/
def Job.samples (j : Job) (now : Nat) : Bool := j.sampled + Config.sampleDistance ≤ now

/-- The comparator of the job's circuit. -/
def Plant.comparator (p : Plant) (j : Job) : Option Bool := j.circuit.bind fun c => (p.circuit c).above

/-- A job's count after a sample that wants a comparator value (R143, R145). -/
def Plant.countAfter (p : Plant) (j : Job) (want : Bool) : Nat := if p.comparator j == some want then j.consecutive + 1 else 0

/-- The step of a RUNNING job is judged at a cleaning status (R132, R141, R143, R149). -/
def Plant.judgeStep (p : Plant) (j : Job) : Plant :=
  if (match p.checkedMedium j with | some m => !p.cs.tankOk m | none => false) then p.abortJob j.id .tankLow
  else
    match p.currentStep j with
    | some (.push _ factor) =>
      (match p.metered j with
       | some v => if factor * p.volumes j.lines ≤ v * 10 then p.advance j.id else p
       | none => p)
    | some (.prove m _ _ _) =>
      if j.samples p.now then
        let n := p.countAfter j false
        let q := p.modJob j.id fun x => { x with sampled := p.now, consecutive := n }
        if 5 ≤ n then q.provePassed j m else q
      else p
    | _ => p

/-- A line's beer return is judged at a cleaning status (R145). -/
def Plant.judgeReturn (p : Plant) (j : Job) : Plant :=
  match j.returnLine with
  | none => p
  | some l =>
    if j.samples p.now then
      let n := p.countAfter j true
      let q := p.modJob j.id fun x => { x with sampled := p.now, consecutive := n }
      let enough : Bool := match p.metered j with | some v => p.volumes [l] ≤ v | none => false
      if 3 ≤ n && enough then q.lineReturned j l else q
    else p

/-- A flush is judged at a cleaning status (R150, R151). -/
def Plant.judgeFlush (p : Plant) (j : Job) : Plant :=
  if !p.cs.tankOk .water then p.flushFail j.id .tankLow
  else
    match p.metered j with
    | some v => if 2 * p.volumes j.remaining ≤ v then p.flushEnd j.id else p
    | none => p

/-- The job of a BUSY circuit is judged (R132). -/
def Plant.judgeCircuit (p : Plant) (c : Nat) : Plant :=
  match (p.circuit c).job.bind p.job with
  | none => p
  | some j =>
    match j.state with
    | .running => p.judgeStep j
    | .beerReturn => p.judgeReturn j
    | .flushing => p.judgeFlush j
    | _ => p

/-- CS takes a cleaning status (R132); initial values set the images and judge nothing. The job of circuit 0 is judged before that
of circuit 1 (log 60). -/
def Plant.cleaningStatus (p : Plant) (tankLow : Vector Bool 3) (inputs : Vector CircuitInput 2) (initial : Bool) : Plant :=
  let q : Plant := { p with cs := { p.cs with
    tanks := some tankLow
    circuits := Vector.ofFn fun c =>
      { p.cs.circuits.get c with
        running := some (inputs.get c).running, meter := some (inputs.get c).meter, above := some (inputs.get c).above } } }
  if initial then q else (q.judgeCircuit 0).judgeCircuit 1

/-! ### Pause (R144) -/

/-- Time left until a deadline. -/
def leftOf {α : Type} (now : Nat) (t : α × Nat) : α × Nat := (t.1, t.2 - now)

/-- A time left, from now on. -/
def fromNow {α : Type} (now : Nat) (t : α × Nat) : α × Nat := (t.1, now + t.2)

/-- The job pauses at the tap whose cap came off (R144). "Every flow request" is that of each line of the job's list, also of a line
that has left the job (DESIGN CHOICE, log 78). -/
def Plant.pauseJob (p : Plant) (j : Job) (tap : Nat) : Plant :=
  let q := p.modJob j.id fun x =>
    { x with pausedFrom := some x.state, kept := x.timer.map (leftOf p.now), keptPhase := x.phase.map (leftOf p.now), phase := none,
             timer := some (.pause, p.now + Config.pauseTime) }
  let r := match j.circuit with | some c => q.modCircuit c fun x => { x with out := { x.out with pump := false } } | none => q
  (r.setFlows j.lines false).setJobState j.id .paused tap

/-- The job resumes (R144). -/
def Plant.resumeJob (p : Plant) (j : Job) : Plant :=
  let back := j.pausedFrom.getD .running
  let q := (p.modJob j.id fun x =>
    { x with pausedFrom := none, timer := x.kept.map (fromNow p.now), phase := x.keptPhase.map (fromNow p.now), kept := none,
             keptPhase := none, sampled := p.now, consecutive := 0 }).setJobState j.id back 0
  if back == .beerReturn then
    match j.returnLine with
    | some l => q.setFlows [l] true
    | none => q.nextReturn j.id
  else
    match p.currentStep j with
    | some s => q.stepOutputs j s (match j.keptPhase with | some (on, _) => on | none => true)
    | none => q

/-- PE passes a cap event to ABSENT to CS (R144, R151). Two jobs whose cap sets hold the tap take it in the order of the job queue, oldest
first (DESIGN CHOICE, log 86). -/
def Plant.capAbsent (p : Plant) (tap : Nat) : Plant :=
  (p.cs.jobs.filter fun j => j.capSet.contains tap).foldl (fun q j =>
    match j.state with
    | .running => q.pauseJob j tap
    | .beerReturn => if (q.capTaps j).contains tap then q.pauseJob j tap else q
    | .flushing => q.flushFail j.id .cap
    | _ => q) p

/-! ### Draining, cap check, arbiter (R135 to R139) -/

/-- Draining of a job has ended (R137). -/
def Plant.drained (p : Plant) (j : Job) : Bool :=
  (j.lines.all fun l => match p.line l with | some x => x.state.takeable | none => true)
    && (p.tapsOfLines j.lines).all fun t => (p.tap t).state != .pouring && (p.tap t).state != .ending

/-- The job enters CAP_CHECK (R138). R138 sends PE the takes on entry and does not order their TAP_STATE notices and the job's JOB_STATE
notice: those of the takes come first here (DESIGN CHOICE, log 11). -/
def Plant.enterCapCheck (p : Plant) (j : Job) : Plant :=
  let q := j.lines.foldl Plant.peTake p
  (q.modJob j.id fun x => { x with capSet := p.tapsOfLines j.lines, timer := some (.cap, p.now + Config.capTime) }).setJobState
    j.id .capCheck 0

/-- A job in CAP_CHECK may run (R138). -/
def Plant.capsReady (p : Plant) (j : Job) : Bool :=
  (j.capSet.all fun t => (p.tap t).capImage == some true)
    && j.lines.all fun l => match p.line l with | some x => x.state.takeable | none => true

/-- The job leaves CAP_CHECK (R139). -/
def Plant.leaveCapCheck (p : Plant) (j : Job) : Plant :=
  let q := j.lines.foldl Plant.takeForCleaning (p.modJob j.id fun x => { x with timer := none })
  if (p.stepsOf j.programme).isEmpty then q.enterReturn j.id
  else (q.setJobState j.id .running 0).startStep j.id 0

/-- A queued job is eligible (R135). -/
def Plant.eligible (p : Plant) (j : Job) : Bool :=
  j.state == .queued && !p.cs.hold && (p.trunk j.trunk).circuit.isNone && p.cc.gate
    && (mediaNeeded (p.stepsOf j.programme)).all p.cs.tankOk && p.cleaningActive

/-- The lowest-numbered FREE circuit. -/
def Plant.freeCircuit (p : Plant) : Option Nat := (List.range 2).find? fun c => (p.circuit c).state == .free

/-- A job is granted a circuit (R136). -/
def Plant.grant (p : Plant) (j : Job) (c : Nat) : Plant :=
  let q := ((p.connect c j.trunk j.id).modJob j.id fun x => { x with circuit := some c }).setJobState j.id .draining c
  (j.lines.foldl Plant.takeForDraining q).modJob j.id fun x => { x with timer := some (.draining, p.now + Config.drainingLimit) }

/-- A line of the job is SERVING (R137). -/
def Plant.serves (p : Plant) (l : Nat) : Bool := (p.line l).map (·.state) == some .serving

/-- The job waits in DRAINING or CAP_CHECK. -/
def Job.taking (j : Job) : Bool := j.state == .draining || j.state == .capCheck

/-- What CS judges next from the state of lines, taps, tanks and gate (R135, R137, R138, R144), if anything. -/
def Plant.csNext (p : Plant) : Option Plant :=
  match p.cs.jobs.find? fun j => j.taking && j.lines.any p.serves with
  | some j => some ((j.lines.filter p.serves).foldl Plant.takeForDraining p)
  | none =>
    match p.cs.jobs.find? fun j => j.state == .draining && p.drained j with
    | some j => some (p.enterCapCheck j)
    | none =>
      match p.cs.jobs.find? fun j => j.state == .capCheck && p.capsReady j with
      | some j => some (p.leaveCapCheck j)
      | none =>
        match p.cs.jobs.find? fun j => j.state == .paused && p.capsFitted j with
        | some j => some (p.resumeJob j)
        | none =>
          match p.freeCircuit, p.cs.jobs.find? p.eligible with
          | some c, some j => some (p.grant j c)
          | _, _ => none

/-- CS judges until nothing is left to judge; the fuel is more than eight jobs can use. -/
def Plant.csLoop : Nat → Plant → Plant
  | 0, p => p
  | n + 1, p =>
    match p.csNext with
    | none => p
    | some q => Plant.csLoop n q

/-- CS's judgements at the end of an arrival (log 10). -/
def Plant.csSettle (p : Plant) : Plant := if p.cs.jobs.isEmpty then p else p.csLoop 200

/-! ### Reports to CS -/

/-- A loss report of a station, taken by CS (R132, R149, R151). Two jobs that it ends are ended in the order of the job queue, oldest
first (DESIGN CHOICE, log 86). -/
def Plant.csLoss (p : Plant) (a : Nat) : Plant :=
  let isPlant : Bool := p.isType a .cleaning
  let hit := p.cs.jobs.filter fun j => j.granted && (isPlant || (p.jobStations j).contains a)
  let q := hit.foldl (fun q j => q.endJob j.id .stationLost .stationLost) p
  if isPlant then
    { q with cs := { q.cs with
      tanks := none
      circuits := q.cs.circuits.map fun c => { c with above := none, meter := none, running := none } } }
  else q

/-- MSC tells CS of a stop onset (R152): the queue hold, and every job that holds a circuit is aborted with cause STOP, in the order of
the job queue, oldest first (DESIGN CHOICE, log 86); a job in FLUSHING fails its flush (R151). -/
def Plant.csStop (p : Plant) : Plant :=
  let q : Plant := { p with cs := { p.cs with hold := true } }
  (q.cs.jobs.filter Job.granted).foldl (fun r j => r.endJob j.id .stop .stop) q

/-- The timer of a job runs for a purpose and its time has come. -/
def Job.timerDue (j : Job) (k : JobTimer) (now : Nat) : Bool :=
  match j.timer with
  | some (m, d) => m == k && d ≤ now
  | none => false

end Sys2Proof.Machine
end

