-- ==== Sys2Proof/Machine/Pours.lean ====
section
/-!
DEFINITION. Pours and metering (chapters 3 and 4): presses, pour start, the status of a tap station, completion, station loss
and join, late counts.
-/

namespace Sys2Proof.Machine

/-! ### Start of a pour (R51 to R53, R77) -/

/-- A pour starts on a tap whose reservation has been granted (R53). -/
def Plant.startPour (p : Plant) (i : Nat) (kind : PourKind) (targetMl ticket : Option Nat) : Plant :=
  let t := p.tap i
  let source := t.line.bind p.headOf
  let trunk := match t.line.bind p.lineView with | some v => p.trunkView v.trunk | none => .unused
  let base := t.count.getD 0
  let u : Pour :=
    { kind := kind, startClock := p.clock, startBase := p.now, base := base,
      target := targetMl.map fun ml => base + BitVec.ofNat 24 (pulsesFor ml t.factor), targetMl := targetMl, ticket := ticket,
      source := source, worst := tempClass trunk, lastChange := p.now, cause := none, holdExpired := false, mode := t.mode,
      factor := t.factor, limitEnd := some (p.now + t.limit * 1000), endingEnd := none }
  let q := p.changeTap i fun x => { x with pour := some u }
  match source with
  | some s => q.pourOn s
  | none => q

/-- PE asks AU for a reservation (R52, R157): granted, the pour starts; refused, every mapped tap takes the JOURNAL hold (R64)
and a claimed ticket is returned (R33). -/
def Plant.tryPour (p : Plant) (i : Nat) (kind : PourKind) (targetMl ticket : Option Nat) : Plant :=
  if p.grants then
    let q := if kind == .calibration then p.reserve.modTap i fun t => { t with calibration := none } else p.reserve
    q.startPour i kind targetMl ticket
  else
    let q := p.refuseReservation.refreshMapped
    match ticket with
    | some k => q.returnTicket k i
    | none => q

/-- A press on an IDLE tap in TICKET mode claims a ticket (R51). -/
def Plant.claimPress (p : Plant) (i : Nat) : Plant :=
  let t := p.tap i
  let a := match t.station with | some (a, _) => a | none => 0
  match (p.tapProduct t).bind (p.claimable a) with
  | none => p.changeTap i fun x => { x with noTicket := some (p.now + Config.noTicketDisplay) }
  | some k =>
    match p.ticket k with
    | none => p
    | some r => (p.claimTicket k i).tryPour i r.claimKind (some r.remaining) (some k)

/-- A handle press is taken by the tap's state (R50). -/
def Plant.takePress (p : Plant) (i : Nat) : Plant :=
  let t := p.tap i
  match t.state with
  | .idle =>
    let q := p.changeTap i fun x => { x with noTicket := none }
    (match t.calibration with
     | some (.armed nominal _ _) => q.tryPour i .calibration (some nominal) none
     | _ => if t.mode == .free then q.tryPour i .normal none none else q.claimPress i)
  | .pouring =>
    (match t.pour with
     | some u => if u.mode == .ticket then p.takeCause i .stopped else p
     | none => p)
  | _ => p

/-- A handle release ends a POURING pour in FREE mode (R50, R56). -/
def Plant.takeRelease (p : Plant) (i : Nat) : Plant :=
  match (p.tap i).state, (p.tap i).pour with
  | .pouring, some u => if u.mode == .free then p.takeCause i .release else p
  | _, _ => p

/-! ### Completion (R59, R78) -/

/-- The category of a pour's volume (R59). -/
def Pour.category (u : Pour) : Category :=
  if u.kind == .calibration then .calibration else if u.mode == .free then .free else .ticketed

/-- The calibration step of a completed CALIBRATION pour (R78). -/
def Plant.calibrationStep (p : Plant) (i : Nat) (u : Pour) (pulses ml : Nat) : Plant :=
  if u.kind == .calibration then
    let q := p.record (.calibration i pulses ml u.factor)
    if u.cause == some .target then
      let nominal := u.targetMl.getD 0
      (q.modTap i fun t =>
        { t with calibration := some (.awaiting pulses ml u.factor nominal (p.clock + BitVec.ofNat 32 Config.resultSeconds)
                   (p.now + Config.resultSeconds * 1000)) }).raise .calibrationReady i ml nominal
    else q
  else p

/-- The pulses of a pour up to the last count seen (R59). -/
def Pour.pulses (u : Pour) (count : Option Count24) : Nat := (count.getD u.base - u.base).toNat

/-- The ticket part of a POUR entry and the plant after the pour result (R34, R59). -/
def Plant.pourResult (p : Plant) (u : Pour) (ml : Nat) : Plant × Option (Word32 × Nat × Outcome) :=
  match u.ticket with
  | none => (p, none)
  | some k =>
    match p.ticket k with
    | none => (p, none)
    | some r =>
      let o := p.pourOutcome r ml (u.cause.getD .target)
      (p.takeOutcome k ml o, some (r.reference, r.portion, o))

/-- The pour in progress on a tap completes (R59). -/
def Plant.completePour (p : Plant) (i : Nat) (incomplete : Bool) : Plant :=
  match (p.tap i).pour with
  | none => p
  | some u =>
    let t := p.tap i
    let pulses := u.pulses t.count
    let ml := volumeOf pulses u.factor
    let product := p.tapProduct t
    let (p2, part) := p.pourResult u ml
    let p3 := p2.recordPour (.pour (some i) t.line u.source (product.bind p.code) u.kind ml (p.now - u.startBase)
      (u.cause.getD .target) u.worst incomplete u.holdExpired part)
    let p4 := ((p3.addSource u.source ml u.startBase).addTap i ml 1).addProduct product u.category ml 1
    let p5 := p4.modCc fun c => c.addLoad p.now ml
    let p6 := match u.source with | some s => p5.pourOff s | none => p5
    (p6.calibrationStep i u pulses ml).changeTap i fun x => { x with pour := none }

/-! ### The status of a tap station (R50, R55, R58, R67, R68, R70) -/

/-- A tap's count is taken (R67, R68). -/
def Plant.takeCount (p : Plant) (i : Nat) (c : Count24) (initial : Bool) : Plant :=
  p.modTap i fun t =>
    let u : Tap := { t with count := some c }
    match t.count with
    | none => u
    | some old =>
      if initial || old == c then u
      else
        match t.state with
        | .pouring | .ending => { u with pour := u.pour.map fun x => { x with lastChange := p.now } }
        | .idle | .held | .off => if p.live then u.creepBy (c - old).toNat else u
        | _ => u

/-- The hold-expired flag of a tap station is taken (R55). -/
def Plant.takeHoldExpired (p : Plant) (taps : List Nat) : Plant :=
  taps.foldl (fun q i =>
    (q.modTap i fun t => { t with pour := t.pour.map fun u => { u with holdExpired := true } }).takeCause i .holdExpired) p

/-- The valve commanded is OPEN_TO. -/
def ValveCmd.isOpenTo : ValveCmd → Bool
  | .openTo _ => true
  | _ => false

/-- A tap's valve and cut-off inputs are taken: the image, the end cause TARGET, and the completion of a pour in ENDING (R55,
R58). -/
def Plant.takeValve (p : Plant) (i : Nat) (isOpen cutOff : Bool) : Plant :=
  let q := p.modTap i fun t => { t with valveImage := some isOpen }
  let r := if cutOff && !isOpen && (q.tap i).valve.isOpenTo then q.takeCause i .target else q
  if !isOpen && (r.tap i).state == .ending then r.completePour i false else r

/-- A POURING pour stalls (R70): no count change in this status, and 1500 ms since the last. -/
def Plant.takeStall (p : Plant) (i : Nat) (counted : Bool) : Plant :=
  match (p.tap i).pour with
  | some u => if !counted && u.lastChange + Config.stallTime ≤ p.now then p.takeCause i .stall else p
  | none => p

/-- A tap's handle input is taken (R50); only a marked change is a press or a release. -/
def Plant.takeHandle (p : Plant) (i : Nat) (before : Option Bool) (pressed : Bool) : Plant :=
  let q := p.modTap i fun t => { t with handle := some pressed }
  match before, pressed with
  | some false, true => q.takePress i
  | some true, false => q.takeRelease i
  | _, _ => q

/-- A tap's cap input is taken (R65, R66): a change on a CLEANING tap is a cap event; ABSENT takes a released tap out of
CLEANING and is passed to CS. -/
def Plant.takeCap (p : Plant) (i : Nat) (fitted : Bool) : Plant :=
  let t := p.tap i
  let event : Bool := t.state == .cleaning && t.capImage != some fitted
  let q := p.changeTap i fun x =>
    if event && !fitted && x.released then { x with capImage := some fitted, cleaning := false, released := false }
    else { x with capImage := some fitted }
  if event && !fitted then q.capAbsent i else q

/-- The inputs of one tap are taken in the order of R50. `before` is the handle SBC's image held, unless the inputs are initial
values. A pour that takes STALL, STOPPED or RELEASE after its valve input has been taken completes at a later arrival of R58
(log 56). -/
def Plant.takeTap (p : Plant) (i : Nat) (inp : TapInput) (before : Option Bool) (initial : Bool) : Plant :=
  let counted : Bool := match (p.tap i).count with | some c => c != inp.count | none => false
  let p1 := p.takeCount i inp.count initial
  let p2 := p1.takeValve i inp.valveOpen inp.cutOff
  let p3 := p2.takeStall i counted
  (p3.takeHandle i before inp.pressed).takeCap i inp.capFitted

/-- PE takes a status of a tap station (R50). `old` holds the inputs SBC's image held; none for initial values. -/
def Plant.tapStatus (p : Plant) (a : Nat) (taps : List TapInput) (old : Option (List TapInput)) (holdExpired : Bool) : Plant :=
  let q := if holdExpired then p.takeHoldExpired (p.tapsOfStation a) else p
  (List.range taps.length).foldl (fun r k =>
    match r.tapAt a k, taps[k]? with
    | some i, some inp => r.takeTap i inp (old.bind fun l => (l[k]?).map (·.pressed)) old.isNone
    | _, _ => r) q

/-! ### Loss and join of a tap station (R60, R61, R73 to R75) -/

/-- A pour on a lost station completes at once, and leaves a late-count record (R61, R73). -/
def Plant.losePour (p : Plant) (i : Nat) : Plant :=
  match (p.tap i).pour with
  | none => p
  | some u =>
    let t := p.tap i
    let q := p.modTap i fun x =>
      { x with
        pour := some { u with cause := some (u.cause.getD .stationLost) }
        late := some
          { seq := p.au.nextSeq, base := u.base, atLoss := t.count.getD u.base, ml := volumeOf (u.pulses t.count) u.factor,
            factor := u.factor, source := u.source, startBase := u.startBase, category := u.category, product := p.tapProduct t,
            lossBase := p.now } }
    q.completePour i true

/-- The loss of a tap station (R61): its pours complete in ascending tap number, so their POUR entries take their seqs in that order
(DESIGN CHOICE, log 74). -/
def Plant.tapLoss (p : Plant) (a : Nat) : Plant :=
  let taps := p.tapsOfStation a
  (taps.foldl Plant.losePour p).refreshTaps taps

/-- The late-count record of a tap is taken at a join without a restart (R74, R75). -/
def Plant.takeLate (p : Plant) (i : Nat) (c : Count24) : Plant :=
  match (p.tap i).late with
  | none => p
  | some r =>
    let q := p.modTap i fun t => { t with late := none }
    let added := volumeOf (c - r.base).toNat r.factor - r.ml
    if added = 0 then q
    else
      let w := q.record (.amend r.seq i added)
      if q.room then ((w.addSource r.source added r.startBase).addTap i added 0).addProduct r.product r.category added 0
      else w.modTap i fun t => t.creepBy (c - r.atLoss).toNat

/-- The join of a tap station with its initial values (R60, R73, R74). The late-count records of its taps are taken in ascending tap
index on the station, so their AMEND entries take their seqs in that order (DESIGN CHOICE, log 95). -/
def Plant.tapJoin (p : Plant) (a : Nat) (taps : List TapInput) (restarted holdExpired : Bool) : Plant :=
  let own := p.tapsOfStation a
  let q :=
    if restarted then own.foldl (fun r i => r.modTap i fun t => { t with late := none }) p
    else (List.range taps.length).foldl (fun r k =>
      match r.tapAt a k, taps[k]? with
      | some i, some inp => r.takeLate i inp.count
      | _, _ => r) p
  (q.tapStatus a taps none holdExpired).refreshTaps own

/-! ### Stop (R63) -/

/-- MSC tells PE of a stop onset (R63): STOP is held by every mapped tap, POURING pours end STOP, CLEANING valves close. -/
def Plant.peStop (p : Plant) : Plant := (p.mappedTaps.foldl (fun q i => q.takeCause i .stop) p).refreshMapped

end Sys2Proof.Machine
end

