-- ==== Sys2Proof/Machine/Cellar.lean ====
section
/-!
DEFINITION. The Line Manager's inputs (chapter 1, §1.5): keg-present and FOB events, loss and join of a cellar station.
-/

namespace Sys2Proof.Machine

/-- A keg end on an OUT_OF_SERVICE line (R15). -/
def Plant.kegEndOut (p : Plant) (l : Nat) : Plant :=
  match p.headOf l with
  | none => p
  | some h => ((p.endKeg h .spent).setContent l .gas).refreshOutlet l

/-- A keg end during a line's beer return: the next position becomes the head at once, and CS is told (R15, R147). -/
def Plant.kegEndReturn (p : Plant) (l : Nat) : Plant :=
  match p.headOf l with
  | none => p
  | some h => (((p.endKeg h .spent).headOnLine l).refreshOutlet l).headChanged l h

/-- A keg end on a line, by its state (R14, R15, R19). -/
def Plant.kegEnd (p : Plant) (l : Nat) (cause : EndCause) : Plant :=
  match p.line l with
  | none => p
  | some x =>
    match x.state with
    | .serving | .draining => p.kegEndOpen l x cause
    | .outOfService => p.kegEndOut l
    | .cleaning => p.kegEndReturn l
    | .changeover | .dry | .locked => p

/-- The position bound to a coupler of a cellar station. -/
def Plant.positionAt (p : Plant) (a k : Nat) : Option Nat := (List.range 64).find? fun i => (p.source i).bound == some (a, k)

/-- A keg is taken from its coupler (R13 to R15, R19, R20). -/
def Plant.kegRemoved (p : Plant) (i : Nat) : Plant :=
  let x := p.source i
  match x.state with
  | .onLine =>
    (match x.line with
     | some l => if p.changing l then p.interruptAttempt l true else p.kegEnd l .kegOut
     | none => p)
  | .loaded => p.unloadLoaded i
  | .spent | .fault => if x.closePending then p.modSource i fun y => { y with removed := true } else p.vacate i
  | .vacant => p

/-- A FOB event (R14, R15, R18). -/
def Plant.fobEvent (p : Plant) (l : Nat) (tripped : Bool) : Plant :=
  if tripped then (if p.changing l then p else p.kegEnd l .fob)
  else
    match p.line l with
    | some x =>
      (match x.state, x.change with
       | .changeover, some c => p.primeAttempt l c
       | _, _ => p)
    | none => p

/-- A keg-present input is an event to absent: marked as a change, or given as an initial value (R13, R16). -/
def becameAbsent (old : Option (Vector Bool 16)) (new : Vector Bool 16) (k : Nat) : Bool :=
  !(new.toList.getD k true) && (match old with | some v => v.toList.getD k false | none => true)

/-- A FOB input is an event: marked as a change, or given as an initial value (R16). -/
def fobMarked (old : Option (Vector Bool 12)) (new : Vector Bool 12) (k : Nat) : Bool :=
  match old with
  | some v => v.toList.getD k false != new.toList.getD k false
  | none => true

/-- The couplers whose keg-present event of a status is a removal, ascending (R13). -/
def kegsGone (old : Option (Vector Bool 16)) (new : Vector Bool 16) : List Nat := (List.range 16).filter (becameAbsent old new)

/-- The standbys of a line that are removed in the same status are taken, in ascending coupler order (R14). -/
def Plant.takeStandbys (p : Plant) (a : Nat) (gone : List Nat) (x : Line) : Plant :=
  gone.foldl (fun q k =>
    match q.positionAt a k with
    | some i => if x.chain.contains i && (q.source i).state == .loaded then q.unloadLoaded i else q
    | none => q) p

/-- A keg-present event to absent on a coupler of a cellar station (R13, R14). `gone` are the couplers of all such events of the status:
before the keg end that a removed ON_LINE head is on a SERVING or DRAINING line, the standbys that go with it are taken, so that they are
no longer in the chain when the line state is picked (R14). In a re-trip window R14's order holds too, and on a line in another state the
events go in R13's order (DESIGN CHOICE, log 73). -/
def Plant.removalAt (p : Plant) (a : Nat) (gone : List Nat) (k : Nat) : Plant :=
  match p.positionAt a k with
  | none => p
  | some i =>
    match (p.source i).state, (p.source i).line.bind p.line with
    | .onLine, some x => if x.state.pours then (p.takeStandbys a gone x).kegRemoved i else p.kegRemoved i
    | _, _ => p.kegRemoved i

/-- LM takes a cellar status: keg-present events in ascending coupler order, but for R14's standbys, then FOB events in ascending line
index (R13). `old` holds the inputs SBC's image held; none for initial values. -/
def Plant.cellarStatus (p : Plant) (a : Nat) (kegs : Vector Bool 16) (fobs : Vector Bool 12)
    (old : Option (Vector Bool 16 × Vector Bool 12)) : Plant :=
  let gone := kegsGone (old.map (·.1)) kegs
  let q := gone.foldl (fun r k => r.removalAt a gone k) p
  (List.range 12).foldl (fun r k =>
    if fobMarked (old.map (·.2)) fobs k then
      (match r.lineAt a k with | some l => r.fobEvent l (fobs.toList.getD k false) | none => r)
    else r) q

/-- The loss of a cellar station (R16, R20). Its lines are taken in ascending line number, so the CHANGEOVER entries of attempts that it
interrupts take their seqs in that order (DESIGN CHOICE, log 89). -/
def Plant.cellarLoss (p : Plant) (a : Nat) : Plant :=
  (p.linesOfStation a).foldl (fun q l =>
    let r := q.setUnsupervised l true
    if r.changing l then r.interruptAttempt l false else r) p

/-- The join of a cellar station, with its initial values taken as events (R16). -/
def Plant.cellarJoin (p : Plant) (a : Nat) (kegs : Vector Bool 16) (fobs : Vector Bool 12) : Plant :=
  ((p.linesOfStation a).foldl (fun q l => q.setUnsupervised l false) p).cellarStatus a kegs fobs none

end Sys2Proof.Machine
end

