-- ==== Sys2Proof/Machine/Bus.lean ====
section
/-!
DEFINITION. The Station Bus Controller (chapter 5): output compositions, frames, rounds, misses, joins, losses, input images.
-/

namespace Sys2Proof.Machine

/-- Changes the controller's own fields. -/
def Plant.modSbc (p : Plant) (f : Sbc → Sbc) : Plant := { p with sbc := f p.sbc }

/-- Changes a station entry. -/
def Plant.modStation (p : Plant) (a : Nat) (f : Station → Station) : Plant := p.setStation a (f (p.station a))

/-! ### Output images (R101, R102) -/

/-- The outputs of a tap index of a tap station (R101). An index that no tap names is sent CLOSED (R48) and OFF: no rule gives its lamp
(DESIGN CHOICE, log 90). -/
def Plant.tapOut (p : Plant) (a k : Nat) : ValveCmd × Lamp :=
  match p.tapAt a k with
  | some i => (if !p.live || p.stopped then .closed else (p.tap i).valve, (p.tap i).lamp)
  | none => (.closed, .off)

/-- The outputs of a line index of a cellar station (R10). -/
def Plant.outletOut (p : Plant) (a k : Nat) : Outlet :=
  match (p.lineAt a k).bind p.line with
  | some x => x.outlet
  | none => ⟨none, .closed, false⟩

/-- The image a POLL carries: the owners' fields under the composition of the mode and of stop (R101, R102). -/
def Plant.compose (p : Plant) (a : Nat) : OutImage :=
  match (p.station a).kind with
  | some .tap => .tap ((List.range (p.station a).taps).map (p.tapOut a))
  | some .cellar => .cellar ((List.range 12).map (p.outletOut a))
  | some .cooling =>
    .cooling (p.cc.stages.toList.map fun s => p.live && s.command) (p.cc.trunks.toList.map fun t => p.live && t.pump)
      (p.live && p.cc.remote)
  | some .cleaning =>
    .cleaning (p.cs.circuits.toList.map fun c => { c.out with pump := c.out.pump && p.live && !p.stopped })
  | none => .tap []

/-! ### Frames and rounds (R83, R88 to R91, R94) -/

/-- An addressed frame opens an exchange (R83). -/
def Plant.sendDescribe (p : Plant) (a : Nat) (why : Purpose) : Plant :=
  p.modSbc fun b => { b with exchange := some ⟨a, why⟩, lastFrame := some (.describe a) }

/-- A POLL with the composed image (R101). -/
def Plant.sendPoll (p : Plant) (a : Nat) : Plant :=
  p.modSbc fun b => { b with exchange := some ⟨a, .poll⟩, lastFrame := some (.poll a (p.compose a)) }

/-- A station is sent DESCRIBE and enters JOINING (R94). -/
def Plant.beginJoin (p : Plant) (a : Nat) (was : JoinedFrom) : Plant :=
  (p.modStation a fun s =>
    { s with state := .joining, joinedFrom := some was, descriptorAccepted := false, misses := 0 }).sendDescribe a .describe

/-- The frame of a JOINING station (R89). -/
def Plant.joinFrame (p : Plant) (a : Nat) : Plant :=
  if (p.station a).descriptorAccepted then p.sendPoll a else p.sendDescribe a .describe

/-- An ACTIVE station is due at its visit (R89), at one still to come in the present round too (log 58). -/
def Plant.pollDue (p : Plant) (a : Nat) : Bool :=
  let s := p.station a
  0 < s.misses || s.dueNext || p.fast a || p.sbc.round % 4 == a % 4

/-- A POLL received at a visit clears the due-next-round flag (R89). -/
def Plant.clearDue (p : Plant) (a : Nat) : Plant := p.modStation a fun s => { s with dueNext := false }

/-- The frame of a visit to an address, by the station's state (R89). -/
def Plant.visit (p : Plant) (a : Nat) : Plant :=
  let s := p.station a
  if s.kind.isNone then p
  else match s.state with
    | .mismatch => p
    | .absent => if p.sbc.round = a % 16 then p.beginJoin a .absent else p
    | .lost => if p.sbc.round = a % 16 then p.beginJoin a .lost else p
    | .joining => if s.descriptorAccepted then (p.clearDue a).joinFrame a else p.joinFrame a
    | .active => if p.pollDue a then (p.clearDue a).sendPoll a else p

/-- The phase after a visit (R88). -/
def afterVisit (a : Nat) : BusPhase := if a < 30 then .visit (a + 1) else .calls 0

/-- The round ends: the counter advances, and a scan that waits begins (R88, R103). -/
def Plant.roundEnd (p : Plant) : Plant :=
  p.modSbc fun b =>
    { b with round := (b.round + 1) % 16, phase := if b.scan.isSome then .scanning 1 else .visit 1 }

/-- No exchange is under way and CLOSE_ALL is not due: the controller may send (R83, R102). -/
def Plant.busFree (p : Plant) : Bool := p.sbc.exchange.isNone && !p.sbc.closeAllDue

/-- The bits of a contention slot, most significant first: the bus is the wired AND of the stations still contending, and a
station that sends 1 and reads 0 withdraws (R90). -/
def slotRead : Nat → List (BitVec 5) → Nat
  | 0, _ => 0
  | k + 1, l =>
    if l.all fun a => a.getLsbD k then 2 ^ k + slotRead k l
    else slotRead k (l.filter fun a => !a.getLsbD k)

/-- The winner of an attention call is served by its state (R91). -/
def Plant.serve (p : Plant) (a : Nat) : Plant :=
  let s := p.station a
  if s.kind.isNone then p.sendDescribe a .clearAttention
  else match s.state with
    | .active => p.sendPoll a
    | .joining => p.joinFrame a
    | .absent => p.beginJoin a .absent
    | .lost => p.beginJoin a .lost
    | .mismatch => p.sendDescribe a .clearAttention

/-- An exchange has ended; when it was that of the fourth call's winner, the round ends (R88, R90). -/
def Plant.endExchange (p : Plant) : Plant :=
  let q := p.modSbc fun b => { b with exchange := none }
  match q.sbc.phase with
  | .calls k => if 4 ≤ k then q.roundEnd else q
  | _ => q

/-! ### Reports (R87) -/

/-- The STATION_STATE notice (R87). -/
def Plant.raiseStation (p : Plant) (a second : Nat) : Plant := p.raise .stationState a (p.station a).state.num second

/-- A loss report, to the owner of the station's inputs and to CS (R87). The owner is told first, so the entries it asks for stand before
those of CS (DESIGN CHOICE, log 94). -/
def Plant.lossReport (p : Plant) (a : Nat) : Plant :=
  let q :=
    match (p.station a).kind with
    | some .tap => p.tapLoss a
    | some .cellar => p.cellarLoss a
    | some .cooling => p.coolingLoss
    | _ => p
  q.csLoss a

/-- A join report with its initial values, to the owner of the station's inputs (R87, R98). -/
def Plant.joinReport (p : Plant) (a : Nat) (image : InputImage) (restarted holdExpired : Bool) : Plant :=
  match image with
  | .tap taps => p.tapJoin a taps restarted holdExpired
  | .cellar kegs fobs => p.cellarJoin a kegs fobs
  | .cooling bath running tripped returns pumps => p.coolingJoin.coolingStatus bath running tripped returns pumps
  | .cleaning tanks circuits => p.cleaningStatus tanks circuits true

/-- A status arrival is delivered to its owner (R97); `old` is the image it was compared with, none for initial values (R98). -/
def Plant.statusArrival (p : Plant) (a : Nat) (image : InputImage) (old : Option InputImage) (holdExpired : Bool) : Plant :=
  match image with
  | .tap taps => p.tapStatus a taps (match old with | some (.tap l) => some l | _ => none) holdExpired
  | .cellar kegs fobs => p.cellarStatus a kegs fobs (match old with | some (.cellar k f) => some (k, f) | _ => none)
  | .cooling bath running tripped returns pumps => p.coolingStatus bath running tripped returns pumps
  | .cleaning tanks circuits => p.cleaningStatus tanks circuits old.isNone

/-! ### Misses, restarts, joins (R84, R92, R93, R95, R96) -/

/-- A count of Table 5-3 grows by 1. -/
def bump (n : Nat) : Nat := satAdd Config.countMax n 1

/-- The station enters LOST by misses (R92); its consecutive misses stay as they are (log 57). -/
def Plant.loseByMisses (p : Plant) (a : Nat) : Plant :=
  ((p.modStation a fun s =>
    { s with state := .lost, joinedFrom := none, descriptorAccepted := false, dueNext := false, inputs := none,
             initialPending := false }).lossReport a).raiseStation a LossCause.misses.num

/-- A restart is taken as a loss followed at once by the start of a join (R93). -/
def Plant.restartStation (p : Plant) (a : Nat) : Plant :=
  (((p.modStation a fun s =>
    { s with restarts := bump s.restarts, restartSinceLoss := true, state := .lost, inputs := none, misses := 0,
             initialPending := false }).lossReport a).raiseStation a LossCause.restart.num).modStation a
    fun s => { s with state := .joining, joinedFrom := some .lost, descriptorAccepted := false }

/-- The state a JOINING station returns to (R96). -/
def returnState : Option JoinedFrom → StationState
  | some .lost => .lost
  | _ => .absent

/-- A miss on the station of an exchange (R84, R92, R96, R103). A station that returns to ABSENT or LOST keeps its consecutive
misses until it is sent DESCRIBE (R94; log 57). -/
def Plant.takeMiss (p : Plant) (x : Exchange) (characters : Bool) : Plant :=
  if x.purpose == .scan || x.purpose == .clearAttention || (p.station x.address).kind.isNone then p
  else
    let a := x.address
    let q := p.modStation a fun s => { s with noise := if characters then bump s.noise else s.noise }
    match (p.station a).state with
    | .active =>
      let r := q.modStation a fun s => { s with misses := s.misses + 1, totalMisses := bump s.totalMisses }
      if 3 ≤ (r.station a).misses then r.loseByMisses a else r
    | .joining =>
      let r := q.modStation a fun s => { s with misses := s.misses + 1, totalMisses := bump s.totalMisses }
      if 2 ≤ (r.station a).misses then
        r.modStation a fun s => { s with state := returnState s.joinedFrom, joinedFrom := none, descriptorAccepted := false }
      else r
    | _ => q

/-- The image has the shape of the station's defined type (R84). -/
def imageFits (s : Station) : InputImage → Bool
  | .tap l => s.kind == some .tap && l.length == s.taps
  | .cellar _ _ => s.kind == some .cellar
  | .cooling _ _ _ _ _ => s.kind == some .cooling
  | .cleaning _ _ => s.kind == some .cleaning

/-- The descriptor matches the definition (R95). -/
def descriptorFits (s : Station) (d : Descriptor) : Bool :=
  match s.kind, d.kind with
  | some .tap, .val .tap => d.taps == s.taps
  | some .cellar, .val .cellar => d.couplers == 16 && d.outlets == 12
  | some .cooling, .val .cooling => d.stages == 3 && d.trunks == 8
  | some .cleaning, .val .cleaning => d.circuits == 2
  | _, _ => false

/-- A JOINING station's STATUS (R96, R98). -/
def Plant.joinStatus (p : Plant) (a : Nat) (r : StatusReply) : Plant :=
  if r.restarted then
    p.modStation a fun s =>
      { s with restarts := bump s.restarts, restartSinceLoss := true, descriptorAccepted := false, misses := 0 }
  else
    let since := (p.station a).restartSinceLoss
    let q := p.modStation a fun s =>
      { s with state := .active, joinedFrom := none, descriptorAccepted := false, misses := 0, inputs := some r.image }
    ((q.joinReport a r.image since r.holdExpired).raiseStation a Config.activeDetail).modStation a fun s =>
      { s with restartSinceLoss := false }

/-! ### Input images (R97, R98, R100) -/

/-- A two-valued input as a number: 0 for the first value the chapter names (R196). -/
def bitInput (b : Bool) : Nat := b.toNat

/-- A temperature input as a 32-bit number in two's complement. -/
def tempInput (t : Int) : Nat := (t % 4294967296).toNat

/-- The inputs of a status in image order (Table 11-7). -/
def inputValues : InputImage → List Nat
  | .tap taps => taps.flatMap fun t => [bitInput t.pressed, bitInput t.capFitted, bitInput t.valveOpen, bitInput t.cutOff, t.count.toNat]
  | .cellar kegs fobs => kegs.toList.map bitInput ++ fobs.toList.map bitInput
  | .cooling bath running tripped returns pumps =>
    tempInput bath :: (running.toList.map bitInput ++ tripped.toList.map bitInput ++ returns.toList.map tempInput ++ pumps.toList.map bitInput)
  | .cleaning tanks circuits =>
    tanks.toList.map bitInput ++ circuits.toList.flatMap fun c => [bitInput c.above, c.meter.toNat, bitInput c.running]

/-- One INPUT_TRACE notice for each input of a status (R100). -/
def Plant.raiseTrace (p : Plant) (a : Nat) (image : InputImage) : Plant :=
  (inputValues image).zipIdx.foldl (fun q e => q.raise .inputTrace a e.2 e.1) p

/-- An ACTIVE station's STATUS (R97). -/
def Plant.activeStatus (p : Plant) (a : Nat) (r : StatusReply) : Plant :=
  if r.restarted then p.restartStation a
  else
    let old := (p.station a).inputs
    let p1 := p.modStation a fun s => { s with misses := 0, dueNext := s.dueNext || r.attention }
    let initial : Bool := (p1.station a).initialPending && !p1.fast a
    let p2 := p1.modStation a fun s =>
      { s with inputs := some r.image, initialPending := if initial then false else s.initialPending }
    p2.statusArrival a r.image (if initial then none else old) r.holdExpired

/-- A STATUS accepted from a station (R96, R97, R100). A traced station's raises its notices whatever the station's state, and R97 and
R96 take it from an ACTIVE or a JOINING one. From a station that is neither, as one redefined while its POLL was under way, nothing
else follows (DESIGN CHOICE, log 97). -/
def Plant.takeStatus (p : Plant) (a : Nat) (r : StatusReply) : Plant :=
  let s := p.station a
  let q := if s.trace then p.raiseTrace a r.image else p
  match s.state with
  | .active => q.activeStatus a r
  | .joining => q.joinStatus a r
  | _ => q

/-- A DESCRIPTOR accepted from a JOINING station (R95); a match is followed by a POLL in the same visit, behind a CLOSE_ALL that
is due (R102). That POLL clears due-next-round, in the service of an attention call too (log 59). -/
def Plant.takeDescriptor (p : Plant) (a : Nat) (d : Descriptor) : Plant :=
  let q := p.modStation a fun s =>
    { s with restarts := if d.restarted then bump s.restarts else s.restarts,
             restartSinceLoss := s.restartSinceLoss || d.restarted, reported := some d }
  if descriptorFits (q.station a) d then
    let r := q.modStation a fun s => { s with descriptorAccepted := true, misses := 0 }
    if r.sbc.closeAllDue then r.modSbc fun b => { b with exchange := none, owedPoll := some a } else (r.clearDue a).sendPoll a
  else
    ((q.modStation a fun s => { s with state := .mismatch, joinedFrom := none, descriptorAccepted := false }).raiseStation a
      (enumFieldNum stationTypeNum d.kind)).endExchange

/-- A DESCRIPTOR recorded by a scan (R103). -/
def Plant.scanDescriptor (p : Plant) (a : Nat) (d : Descriptor) : Plant :=
  let q := p.modSbc fun b => { b with scan := b.scan.map fun l => l ++ [(a, d)] }
  if (q.station a).kind.isNone then q
  else
    let r := q.modStation a fun s => { s with reported := some d }
    if (r.station a).state == .active && d.restarted then r.restartStation a else r

/-- CLOSE_ALL is sent, and then a POLL that waited behind it (R102). -/
def Plant.sendCloseAll (p : Plant) : Plant :=
  let q := p.modSbc fun b => { b with closeAllDue := false, owedPoll := none, lastFrame := some .closeAll }
  match p.sbc.owedPoll with
  | none => q
  | some a =>
    if (q.station a).state == .joining && (q.station a).descriptorAccepted then (q.clearDue a).sendPoll a else q.endExchange

end Sys2Proof.Machine
end

