-- ==== Sys2Proof/Machine/Formats.lean ====
section
/-!
DEFINITION. Byte layouts of journal entries, notices and table entries (chapter 11; widths no rule gives: log 14, log 15, log 34).
-/

namespace Sys2Proof.Machine

/-! ### Two-valued fields and times -/

/-- A readout value that may be unknown: a number, or 255. -/
def fKnown {α : Type} (num : α → Nat) : Option α → List Byte
  | none => fByte 255
  | some a => fByte (num a)

/-- "ON or OFF", "RUNNING, STOPPED", "OPEN, CLOSED", "FITTED, ABSENT", "ABOVE, BELOW": the first value is true (R194; log 34). -/
def trueFirst (b : Bool) : Nat := if b then 0 else 1

/-- "RELEASED, PRESSED", "RECIRCULATE or DRAIN", "LOCAL or REMOTE": the first value is false (R194; log 34). -/
def falseFirst (b : Bool) : Nat := if b then 1 else 0

/-- The pin level, LOW or HIGH (R178). -/
def pinNum (low : Bool) : Nat := trueFirst low

/-- A past time of the time base as the part-clock value that corresponds to it (R107, R173): the part clock advances by 1 for
each 1000 ms, counted from the time at which it last advanced or was set. -/
def Plant.pastClock (p : Plant) (t : Nat) : Nat :=
  (p.clock + BitVec.ofNat 32 ((t - p.msc.clockSince) / 1000) - BitVec.ofNat 32 (ceilDiv (p.msc.clockSince - t) 1000)).toNat

/-- The end of a running timer as a part-clock value: the part clock plus the time left, whole seconds (R173; log 28). -/
def Plant.endClock (p : Plant) (t : Nat) : Nat := (p.clock + BitVec.ofNat 32 ((t - p.now) / 1000)).toNat

/-- A meter count; unknown is all bits one (log 14). -/
def fCount : Option Count24 → List Byte
  | none => fThree 16777215
  | some c => fThree c.toNat

/-- A meter factor computed by a calibration (R80); one that two bytes do not hold is a free value (log 37). -/
def fFactor (n : Nat) : List Byte := if n ≤ 65534 then fHalf n else fHalf (Config.wideFactor n)

/-! ### Journal entries (R195, Table 11-4) -/

/-- The number of an entry kind (R195). -/
def EntryBody.num : EntryBody → Nat
  | .pour .. => 0 | .amend .. => 1 | .ticketClose .. => 2 | .kegClose .. => 3 | .changeover .. => 4 | .purge .. => 5
  | .cleanRun .. => 6 | .calibration .. => 7 | .calResult .. => 8 | .leak .. => 9 | .periodClose .. => 10 | .stop .. => 11
  | .start .. => 12

/-- A product record of a PERIOD_CLOSE entry, 26 bytes. -/
def fPeriodRecord (r : PeriodRecord) : List Byte :=
  fHalf r.code ++ fWord r.ticketed ++ fWord r.free ++ fWord r.purge ++ fWord r.calibration ++ fWord r.pours ++ fWord r.shorts

/-- The part of an entry's kind (Table 11-4); a PERIOD_CLOSE stands whole, as its only part. An AMEND carries no product code (DESIGN
CHOICE, log 80), and the outcome of a CLEAN_RUN is COMPLETE 0 or ABORTED 1 (DESIGN CHOICE, log 81). -/
def EntryBody.bytes : EntryBody → List Byte
  | .pour tap line source code kind ml duration cause temp incomplete held ticket =>
    fOptByte tap ++ fOptByte line ++ fOptByte source ++ fOptHalf code ++ fByte kind.num ++ fWord ml ++ fWord duration
      ++ fByte cause.num ++ fByte temp.num ++ fByte (incomplete.toNat + 2 * held.toNat + 4 * ticket.isSome.toNat)
      ++ (match ticket with
          | none => []
          | some (reference, portion, o) => fWord reference.toNat ++ fWord portion ++ fByte o.num)
  | .amend seq tap ml => fWord seq.toNat ++ fByte tap ++ fWord ml
  | .ticketClose reference station code portion o remaining =>
    fWord reference.toNat ++ fByte station ++ fOptHalf code ++ fWord portion ++ fByte o.num ++ fWord remaining
  | .kegClose position fillRef code nominal dispensed y early =>
    fByte position ++ fWord fillRef.toNat ++ fOptHalf code ++ fWord nominal ++ fWord dispensed ++ fHalf y ++ fFlag early
  | .changeover line fromPos toPos r => fByte line ++ fOptByte fromPos ++ fOptByte toPos ++ fByte r.num
  | .purge line source code ml => fByte line ++ fOptByte source ++ fOptHalf code ++ fWord ml
  | .cleanRun job trunk programme cause flush contents =>
    fByte job ++ fByte trunk ++ fByte programme ++ fByte cause.isSome.toNat ++ fOptByte (cause.map AbortCause.num) ++ fByte flush.num
      ++ fList (fun e : Nat × Option Content => fByte e.1 ++ fOptByte (e.2.map contentNum)) contents
  | .calibration tap pulses ml oldFactor => fByte tap ++ fWord pulses ++ fWord ml ++ fHalf oldFactor
  | .calResult tap measured newFactor accepted => fByte tap ++ fWord measured ++ fFactor newFactor ++ fFlag accepted
  | .leak tap ml => fByte tap ++ fWord ml
  | .periodClose period records =>
    fWord period.toNat ++ fByte records.length ++ fByte 0 ++ fFlag true ++ records.flatMap fPeriodRecord
  | .stop onset source => fByte (trueFirst onset) ++ fByte source.num
  | .start products tapStations cellarStations coolingStations cleaningStations lines taps trunks programmes loaded =>
    fByte products ++ fByte tapStations ++ fByte cellarStations ++ fByte coolingStations ++ fByte cleaningStations ++ fByte lines
      ++ fByte taps ++ fByte trunks ++ fByte programmes ++ fByte loaded

/-- An entry: the header of 11 bytes, the gap part when present, and the part of its kind. -/
def Entry.frame (e : Entry) (gap : Option Nat) (part : List Byte) : List Byte :=
  let g := match gap with | none => [] | some n => fHalf n
  fWord e.seq.toNat ++ fWord e.time.toNat ++ fByte e.body.num ++ fByte (11 + g.length + part.length) ++ fByte gap.isSome.toNat
    ++ g ++ part

/-- A whole entry (R195). -/
def Entry.bytes (e : Entry) : List Byte := e.frame e.gap e.body.bytes

/-- The bytes of a reply's data left for journal entries (R162, R195; log 14). -/
def entryRoom : Nat := 236

/-- The product records that one part of a PERIOD_CLOSE entry holds (R163). -/
def recordsPerPart : Nat := 8

/-- One part of a PERIOD_CLOSE entry from a record offset (R163, R195): its bytes and whether it is the last. -/
def Entry.part (e : Entry) (period : Word32) (records : List PeriodRecord) (offset : Nat) : List Byte × Bool :=
  let last : Bool := records.length ≤ offset + recordsPerPart
  (e.frame (if offset = 0 then e.gap else none)
    (fWord period.toNat ++ fByte records.length ++ fByte (offset / recordsPerPart) ++ fFlag last
      ++ ((records.drop offset).take recordsPerPart).flatMap fPeriodRecord), last)

/-- Entries read from the front of a list (R162, R163): `count` at most, within `room` bytes, the first from a record offset.
The answer is the bytes of each, the number of entries returned whole, and the offset left in the next. -/
def readEntries : List Entry → Nat → Nat → Nat → Bool → List (List Byte) × Nat × Nat
  | [], _, _, _, _ => ([], 0, 0)
  | _ :: _, 0, _, offset, _ => ([], 0, offset)
  | e :: rest, count + 1, room, offset, first =>
    let whole := e.bytes
    if offset = 0 && whole.length ≤ room then
      let (l, n, o) := readEntries rest count (room - whole.length) 0 false
      (whole :: l, n + 1, o)
    else if first then
      (match e.body with
       | .periodClose period records =>
         let (b, last) := e.part period records offset
         if last then
           let (l, n, o) := readEntries rest count (room - b.length) 0 false
           (b :: l, n + 1, o)
         else ([b], 0, offset + recordsPerPart)
       | _ => ([], 0, 0))
    else ([], 0, 0)

/-! ### Notices (R195) -/

/-- A notice, 14 bytes (R195). -/
def Notice.bytes (n : Notice) : List Byte := fByte n.kind.num ++ fByte n.subject ++ fWord n.first ++ fWord n.second ++ fWord n.time.toNat

/-! ### Table entries (R191, R194; Tables 1-1 to 9-x of the owners) -/

/-- A name of 12 characters, padded with spaces (Table 11-1). -/
def fName (l : List Byte) : List Byte := (l ++ List.replicate 12 0x20#8).take 12

def fProduct (d : Option Product) : List Byte :=
  fOptHalf (d.map (·.code)) ++ fName ((d.map (·.name)).getD []) ++ fOptWord (d.map (·.tolerance)) ++ fOptWord (d.map (·.threshold))

def fSource (x : Source) : List Byte :=
  fOptByte (x.bound.map (·.1)) ++ fOptByte (x.bound.map (·.2)) ++ fByte x.state.num ++ fOptByte (x.keg.map (·.product))
    ++ fOptWord (x.keg.map (·.nominal)) ++ fOptWord (x.keg.map (·.dispensed)) ++ fOptWord (x.keg.map (·.fillRef.toNat))
    ++ fOptWord (x.keg.map (·.loadedAt.toNat)) ++ fOptByte x.line
    ++ (if x.state == .spent || x.state == .fault then fFlag x.closePending else fByte 255)

def Plant.fLine (p : Plant) (d : Option Line) : List Byte :=
  let c := d.bind (·.change)
  fOptByte (d.map (·.product)) ++ fOptByte (d.map (·.trunk)) ++ fOptByte (d.map (·.station)) ++ fOptByte (d.map (·.index))
    ++ fOptWord (d.map (·.volume)) ++ fKnown trueFirst (d.map (·.auto)) ++ fOptByte (d.map (·.state.num))
    ++ fOptByte (d.map fun x => contentNum x.content) ++ fKnown Bool.toNat (d.map (·.unsupervised)) ++ fOptByte (d.bind (·.job))
    ++ (match d with | none => fByte 255 | some x => fList fByte x.chain)
    ++ fOptByte (c.map (·.position)) ++ fOptByte (c.bind (·.fromPos)) ++ fOptWord (c.map fun k => p.pastClock k.start)
    ++ fOptWord (c.bind fun k => k.primed.map p.pastClock) ++ fKnown Bool.toNat (d.map (·.declaredOut))

/-- Claimed-from and tap of a CLAIMED ticket (Table 2-1). -/
def Ticket.claim? (k : Ticket) : Option (ClaimedFrom × Nat) :=
  match k.state with
  | .claimed was t => some (was, t)
  | _ => none

/-- A ticket record, in the order of Table 2-1, then its place in its station's queue (R25), which stands in 1 byte (log 14). -/
def Plant.fTicket (p : Plant) (i : Nat) : List Byte :=
  let d := p.ticket i
  let claim : Option (ClaimedFrom × Nat) := d.bind Ticket.claim?
  fByte (match d with | none => 0 | some k => k.state.num) ++ fOptWord (d.map (·.reference.toNat)) ++ fOptByte (d.map (·.station))
    ++ fOptByte (d.map (·.product)) ++ fOptWord (d.map (·.portion)) ++ fOptWord (d.map (·.remaining)) ++ fOptWord (d.map (·.issuedAt.toNat))
    ++ fOptWord (d.map (·.expiresAt.toNat)) ++ fOptByte (claim.map fun c => c.1.num) ++ fOptByte (claim.map (·.2))
    ++ fOptWord (d.bind fun k => k.topupDeadline.map BitVec.toNat)
    ++ fOptByte (d.bind fun k => (p.queue k.station).findIdx? (· == i))

/-- A calibration sub-record: its condition, then pulses, ml, old factor, nominal and end, in the order of Table 4-3; a field that
the condition does not hold is sent absent (log 52: one layout for every condition, 255 absent, 1 ARMED, 2 AWAITING). -/
def fCalibration : Option Calibration → List Byte
  | none => fByte 255 ++ fOptWord none ++ fOptWord none ++ fOptHalf none ++ fOptWord none ++ fOptWord none
  | some (.armed nominal until_ _) => fByte 1 ++ fOptWord none ++ fOptWord none ++ fOptHalf none ++ fWord nominal ++ fWord until_.toNat
  | some (.awaiting pulses ml oldFactor nominal deadline _) =>
    fByte 2 ++ fWord pulses ++ fWord ml ++ fHalf oldFactor ++ fWord nominal ++ fWord deadline.toNat

def fTap (t : Tap) : List Byte :=
  fOptByte (t.station.map (·.1)) ++ fOptByte (t.station.map (·.2)) ++ fOptByte t.line ++ fByte (tapModeNum t.mode) ++ fByte t.state.num
    ++ fByte t.holds.num ++ fFlag t.off ++ fHalf t.factor ++ fHalf t.limit ++ fKnown falseFirst t.handle ++ fKnown trueFirst t.capImage
    ++ fKnown trueFirst t.valveImage ++ fCount t.count ++ fByte t.lamp.num ++ fCalibration t.calibration ++ fWord t.creep
    ++ fOptByte (t.staged.mode.map tapModeNum) ++ fOptHalf t.staged.factor ++ fOptHalf t.staged.limit
    ++ fOptByte (t.pour.map (·.kind.num)) ++ fOptWord (t.pour.map (·.startClock.toNat)) ++ fOptWord (t.pour.map (·.startBase)) ++ fOptByte (t.pour.bind (·.ticket))
    ++ fOptByte (t.pour.bind (·.source))

def fDescriptor : Option Descriptor → List Byte
  | none => List.replicate 7 0xFF#8
  | some d => fByte (enumFieldNum stationTypeNum d.kind) ++ fByte d.taps ++ fByte d.couplers ++ fByte d.outlets ++ fByte d.stages ++ fByte d.trunks ++ fByte d.circuits

/-- The state a JOINING station came from (Table 5-3), by its number in Table 5-4 (R194). -/
def JoinedFrom.num : JoinedFrom → Nat
  | .absent => StationState.num .absent | .lost => StationState.num .lost

/-- A station entry, in the order of Table 5-3. An unused entry sends every field absent (log 40). The poll class is that which a
visit now would find (R89; log 65). The position block goes in 1 byte (DESIGN CHOICE, log 83). -/
def Plant.fStation (p : Plant) (a : Nat) : List Byte :=
  let s := p.station a
  let used : Option Station := if s.kind.isSome then some s else none
  let flag (f : Station → Bool) : List Byte := fKnown Bool.toNat (used.map f)
  fOptByte (s.kind.map stationTypeNum) ++ fOptHalf (if s.kind == some .tap then some s.taps else none)
    ++ (if s.kind == some .cellar then fByte s.block else fByte 255) ++ fOptByte (used.map (·.state.num))
    ++ fOptByte (s.joinedFrom.map JoinedFrom.num) ++ (if s.state == .joining then flag (·.descriptorAccepted) else fByte 255)
    ++ fDescriptor (used.bind (·.reported)) ++ (if p.active a then fByte (trueFirst (p.fast a)) else fByte 255) ++ flag (·.dueNext)
    ++ fOptHalf (used.map (·.misses)) ++ fOptHalf (used.map (·.totalMisses)) ++ fOptHalf (used.map (·.noise))
    ++ fOptHalf (used.map (·.restarts)) ++ flag (·.restartSinceLoss) ++ flag (·.initialPending) ++ flag (·.trace)

/-- An input image (Table 11-7). -/
def fInputs : InputImage → List Byte
  | .tap taps => taps.flatMap fun t =>
    fByte (bitInput t.pressed) ++ fByte (bitInput t.capFitted) ++ fByte (bitInput t.valveOpen) ++ fByte (bitInput t.cutOff) ++ fThree t.count.toNat
  | .cellar kegs fobs => kegs.toList.flatMap fFlag ++ fobs.toList.flatMap fFlag
  | .cooling bath running tripped returns pumps =>
    fTemp bath ++ running.toList.flatMap fFlag ++ tripped.toList.flatMap fFlag ++ returns.toList.flatMap fTemp ++ pumps.toList.flatMap fFlag
  | .cleaning tanks circuits => tanks.toList.flatMap fFlag ++ circuits.toList.flatMap fun c => fFlag c.above ++ fThree c.meter.toNat ++ fFlag c.running

/-- An output image (Table 11-6). -/
def fOutputs : OutImage → List Byte
  | .tap taps => taps.flatMap fun e =>
    fByte e.1.num ++ fThree (match e.1 with | .openTo c => c.toNat | _ => 0) ++ fByte e.2.num
  | .cellar outlets => outlets.flatMap fun o => fOptByte o.coupler ++ fByte o.route.num ++ fByte (trueFirst o.vent)
  | .cooling stages pumps remote => stages.flatMap (fun b => fByte (trueFirst b)) ++ pumps.flatMap (fun b => fByte (trueFirst b)) ++ fByte (falseFirst remote)
  | .cleaning circuits => circuits.flatMap fun o =>
    fByte (trueFirst o.pump) ++ fByte (mediumOutNum o.medium) ++ fByte (falseFirst o.drain) ++ fWord o.threshold ++ fOptByte o.trunk

def Plant.fStationInputs (p : Plant) (a : Nat) : List Byte :=
  let s := p.station a
  fOptByte (s.kind.map stationTypeNum) ++ fFlag s.inputs.isSome ++ (match s.inputs with | none => [] | some i => fInputs i)

/-- The output image as the owners have written it (R101). -/
def Plant.written (p : Plant) (a : Nat) : OutImage :=
  ({ p with msc := { p.msc with mode := .live, stop := .clear } }).compose a

/-- A STATION_OUTPUTS entry (R194): the type, the known flag and the image as written. -/
def Plant.fStationOutputs (p : Plant) (a : Nat) : List Byte :=
  fOptByte ((p.station a).kind.map stationTypeNum) ++ fFlag (p.station a).inputs.isSome ++ fOutputs (p.written a)

/-- The COOLING entry: the fields of Table 6-1 in its order, then the window sum of R120 (log 62). The minimum times
are a choice byte and the two times in force, and a timer is its end, absent while stopped (DESIGN CHOICE, log 77). -/
def Plant.fCooling (p : Plant) : List Byte :=
  let c := p.cc
  fByte c.state.num ++ fTemp c.setpoint ++ fTemp Config.band ++ fByte c.programmed.isSome.toNat ++ fHalf (c.minOn / 1000) ++ fHalf (c.minOff / 1000)
    ++ fHalf c.threshold ++ fTemp c.offset ++ fOptTemp c.lastBath ++ fFlag c.probeFault ++ fOptWord (c.degradeEnd.map p.endClock)
    ++ fOptByte (c.cause.map DegradeCause.num) ++ fOptWord (c.hintEnd.map p.endClock) ++ fFlag c.surge ++ fTemp c.effective
    ++ fOptWord (c.lastStart.map p.pastClock) ++ fOptWord (c.graceEnd.map p.endClock) ++ fByte (trueFirst c.gate) ++ fFlag c.joinedOnce ++ fWord c.windowSum

/-- A stage entry (R112): the run feedback by the order of Table 11-7, STOPPED then RUNNING (log 34). -/
def Plant.fStage (p : Plant) (s : Stage) : List Byte :=
  fByte (commandNum s.command) ++ fOptWord (s.lastChange.map p.pastClock) ++ fKnown falseFirst s.running ++ fFlag s.tripped

/-- A trunk entry (R121, Table 6-3): the pump timer is its end, absent while stopped (DESIGN CHOICE, log 77). -/
def Plant.fTrunk (p : Plant) (t : Trunk) : List Byte :=
  fFlag t.inUse ++ fTemp t.warm ++ fTemp t.hot ++ fOptTemp t.temperature ++ fByte t.state.num ++ fByte (trueFirst t.pump) ++ fKnown trueFirst t.feedback
    ++ fFlag t.pumpFault ++ fOptWord (t.pumpEnd.map p.endClock) ++ fOptByte t.circuit

def actionNum : StepAction → Nat
  | .push => 0 | .recirculate => 1 | .soak => 2 | .pulse => 3 | .prove => 4

/-- A step item, 13 bytes (R194). -/
def fStep (s : Step) : List Byte :=
  let item (a : StepAction) (m : Option Medium) (d f t l : Option Nat) (onFail count : Option Nat) : List Byte :=
    fByte (actionNum a) ++ fOptByte (m.map mediumNum) ++ fOptHalf d ++ fOptByte f ++ fOptWord t ++ fOptHalf l ++ fOptByte onFail ++ fOptByte count
  match s with
  | .push m f => item .push (some m) none (some f) none none none none
  | .recirculate m d => item .recirculate (some m) (some d) none none none none none
  | .soak d => item .soak none (some d) none none none none none
  | .pulse m d => item .pulse (some m) (some d) none none none none none
  | .prove m t l r => item .prove (some m) none none (some t) (some l) (some r.isSome.toNat) r

def fProgramme (g : Option Programme) : List Byte :=
  match g with
  | none => fByte 255 ++ fByte 255
  | some x => fList fStep x.steps ++ fFlag x.valid

/-- A job record, in the order of Table 7-3; paused-from by its number in Table 7-4 (R194). -/
def fJob (d : Option Job) : List Byte :=
  fOptByte (d.map (·.id)) ++ fOptByte (d.map (·.trunk)) ++ (match d with | none => fByte 255 | some j => fList fByte j.lines)
    ++ fOptByte (d.map (·.programme)) ++ fOptByte (d.map (·.state.num)) ++ fOptByte (d.bind fun j => j.pausedFrom.map JobState.num)
    ++ fOptByte (d.bind (·.step)) ++ fOptByte (d.map (·.repeats)) ++ fOptByte (d.bind (·.circuit)) ++ fOptWord (d.map (·.requestedAt.toNat))
    ++ fKnown Bool.toNat (d.map (·.chemical)) ++ fKnown Bool.toNat (d.map (·.proof)) ++ fOptByte (d.bind (·.returnLine)) ++ fCount (d.bind (·.base))
    ++ fOptByte (d.map (·.trunkState.num)) ++ fOptByte (d.bind fun j => j.abortCause.map AbortCause.num) ++ fKnown Bool.toNat (d.map (·.flushFailed))

def fCircuit (c : Circuit) : List Byte :=
  fByte c.state.num ++ fOptByte c.job ++ fByte (trueFirst c.out.pump) ++ fByte (mediumOutNum c.out.medium) ++ fByte (falseFirst c.out.drain)
    ++ fWord c.out.threshold ++ fOptByte c.out.trunk ++ fKnown trueFirst c.above ++ fCount c.meter ++ fKnown trueFirst c.running
    ++ fOptByte (c.faultCause.map FaultCause.num)

/-- The JOURNAL_STATE entry (R171): with no entry held, the oldest held seq is absent, all bits one (DESIGN CHOICE, log 79). -/
def Plant.fJournalState (p : Plant) : List Byte :=
  fHalf p.fill ++ fHalf p.au.reserved ++ fHalf p.available ++ fOptWord (p.au.journal.head?.map (·.seq.toNat)) ++ fWord p.au.nextSeq.toNat
    ++ fHalf p.au.gap ++ fFlag p.au.refused ++ fHalf p.au.mark ++ fFlag p.au.armed ++ fWord p.au.cursorSeq.toNat ++ fByte p.au.cursorOffset

/-- The ACCOUNTS entry (R171, R28): each of the four ticket counters in 4 bytes (log 54). -/
def Plant.fAccounts (p : Plant) : List Byte :=
  fWord p.au.period.toNat ++ fWord p.au.openedAt.toNat ++ fWord p.au.issued ++ fWord p.au.poured ++ fWord p.au.shorted ++ fWord p.au.voided

/-- One part of a totals record; `width` bytes for each volume. -/
def fTotals (width : Nat) (t : Totals) : List Byte :=
  leBytes width t.ticketed ++ leBytes width t.free ++ leBytes width t.purge ++ leBytes width t.calibration ++ fWord t.pours ++ fWord t.shorts

def Plant.fProductTotals (p : Plant) (i : Nat) : List Byte := fTotals 4 (p.totals i).1 ++ fTotals 6 (p.totals i).2 ++ fOptHalf (p.code i)

def Plant.fMode (p : Plant) : List Byte :=
  fByte p.msc.mode.num ++ fByte p.msc.stop.num ++ fOptByte (p.msc.source.map StopSource.num) ++ fByte (pinNum p.msc.pinLow) ++ fWord p.clock.toNat
    ++ fOptWord (p.msc.lastOnset.map BitVec.toNat) ++ fOptWord (p.msc.liveAt.map BitVec.toNat)

/-- The rate in bit/s (Table 10-1). -/
def Rate.bits : Rate → Nat
  | .r57600 => 57600 | .r115200 => 115200 | .r230400 => 230400 | .r460800 => 460800

/-- The receiver phase (R185). -/
def Receiver.num : Receiver → Nat
  | .hunting => 0 | .length => 1 | .body _ _ => 2 | .crc _ _ _ => 3

def fLink (h : Hl) : List Byte :=
  let c := h.counts
  fWord (Rate.bits h.rate) ++ fByte h.receiver.num ++ fHalf c.accepted ++ fHalf c.noise ++ fHalf c.lengthErrors ++ fHalf c.gapErrors ++ fHalf c.framingErrors
    ++ fHalf c.crcErrors ++ fHalf c.overruns ++ fHalf c.breaks

/-- The size of a table (Table 10-4). -/
def tableSize : TableName → Nat
  | .products => 32 | .sources => 64 | .lines => 48 | .tickets => 160 | .taps => 96 | .stations => 30 | .stationInputs => 30
  | .stationOutputs => 30 | .cooling => 1 | .stages => 3 | .trunks => 8 | .programmes => 6 | .jobs => 8 | .circuits => 2
  | .journalState => 1 | .accounts => 1 | .productTotals => 32 | .tapTotals => 96 | .mode => 1 | .link => 1

/-- The job at a place of the job queue. -/
def Plant.jobAt (p : Plant) (k : Nat) : Option Job := p.cs.jobs[k]?

/-- The entry of a table index is in use (Table 10-4). Station tables are indexed from 0 for address 1 (log 14). -/
def Plant.inUse (p : Plant) (t : TableName) (i : Nat) : Bool :=
  match t with
  | .products => (p.product i).isSome
  | .sources => (p.source i).state != .vacant
  | .lines => (p.line i).isSome
  | .tickets => (p.ticket i).isSome
  | .taps => (p.tap i).station.isSome
  | .stations | .stationInputs | .stationOutputs => (p.station (i + 1)).kind.isSome
  | .trunks => (p.trunk i).inUse
  | .programmes => (p.programme i).isSome
  | .jobs => (p.jobAt i).isSome
  | .productTotals => (p.product i).isSome
  | .tapTotals => (p.tap i).line.isSome
  | .cooling | .stages | .circuits | .journalState | .accounts | .mode | .link => true

/-- The fields of a table entry, in the order of its owner's table (R191, R194). -/
def State.tableFields (s : State) (t : TableName) (i : Nat) : List Byte :=
  let p := s.plant
  match t with
  | .products => fProduct (p.product i)
  | .sources => fSource (p.source i)
  | .lines => p.fLine (p.line i)
  | .tickets => p.fTicket i
  | .taps => fTap (p.tap i)
  | .stations => p.fStation (i + 1)
  | .stationInputs => p.fStationInputs (i + 1)
  | .stationOutputs => p.fStationOutputs (i + 1)
  | .cooling => p.fCooling
  | .stages => p.fStage (p.stage i)
  | .trunks => p.fTrunk (p.trunk i)
  | .programmes => fProgramme (p.programme i)
  | .jobs => fJob (p.jobAt i)
  | .circuits => fCircuit (p.circuit i)
  | .journalState => p.fJournalState
  | .accounts => p.fAccounts
  | .productTotals => p.fProductTotals i
  | .tapTotals => fWord (p.tapTotals i).1 ++ fWord (p.tapTotals i).2
  | .mode => p.fMode
  | .link => fLink s.hl

/-- A table entry in a reply: its index, its length and its fields (R191). -/
def State.tableEntry (s : State) (t : TableName) (i : Nat) : List Byte :=
  fByte i ++ fByte (s.tableFields t i).length ++ s.tableFields t i

/-- The bytes of a reply's data left for table entries (R194). -/
def tableRoom : Nat := 243

/-- Entries placed in a reply from a list of indices (R191): the bytes of each, the count still to return, and the indices not
passed. -/
def State.placeEntries (s : State) (t : TableName) (step : ReadStep) : List Nat → Nat → Nat → List (List Byte) × Nat × List Nat
  | [], left, _ => ([], left, [])
  | i :: rest, left, room =>
    if left = 0 then ([], 0, i :: rest)
    else if step == .inUse && !s.plant.inUse t i then s.placeEntries t step rest left room
    else
      let b := s.tableEntry t i
      if b.length ≤ room then
        let (l, n, r) := s.placeEntries t step rest (left - 1) (room - b.length)
        (b :: l, n, r)
      else ([], left, i :: rest)

end Sys2Proof.Machine
end

