-- ==== Sys2Proof/Machine/Frames.lean ====
section
/-!
DEFINITION. Frames of the host link: sampling a character, the CRC both links use, the envelope of a reply, and what the
transmitter does with the reply queue.
-/

namespace Sys2Proof

/-! ### Sampling a character (R184) -/

/-- The value that two or more of a bit's samples agree on (R184). -/
def BitSamples.value (b : BitSamples) : Bool := (b.first && b.second) || (b.first && b.third) || (b.second && b.third)

/-- The three samples of a bit disagree (R184). -/
def BitSamples.disagree (b : BitSamples) : Bool := b.first != b.second || b.second != b.third

/-- The data byte of a character, the least significant bit first (Table 10-1). -/
def RxChar.value (c : RxChar) : Byte := BitVec.ofNat 8 (c.data.toList.foldr (fun b n => b.value.toNat + 2 * n) 0)

/-- A character as taken: its byte, noisy when the samples of any of its bits disagree, with a framing error when its stop bit is
taken as 0 (R184). A start bit taken as 1 does not discard the character: the start samples serve for the noisy mark alone (DESIGN
CHOICE, log 88). -/
def RxChar.byte (c : RxChar) : RxByte where
  value := c.value
  noisy := c.start.disagree || c.data.toList.any BitSamples.disagree || c.stop.disagree
  framing := !c.stop.value

end Sys2Proof

namespace Sys2Proof.Machine

/-! ### The CRC (R83, R185) -/

/-- One bit of the CRC-16 with polynomial 0x1021. -/
def crcBit (c : BitVec 16) : BitVec 16 := if c.getLsbD 15 then (c <<< 1) ^^^ 0x1021#16 else c <<< 1

/-- One byte of the CRC-16. -/
def crcByte (c : BitVec 16) (b : Byte) : BitVec 16 :=
  crcBit (crcBit (crcBit (crcBit (crcBit (crcBit (crcBit (crcBit (c ^^^ ((b.setWidth 16) <<< 8)))))))))

/-- The CRC-16 of bytes, from the initial value 0xFFFF. -/
def crc16 (l : List Byte) : BitVec 16 := l.foldl crcByte 0xFFFF#16

/-- A length byte, a body, and the CRC of both, low byte first (Table 11-2, R196). -/
def lengthBodyCrc (body : List Byte) : List Byte :=
  let covered := BitVec.ofNat 8 body.length :: body
  covered ++ leBytes 2 (crc16 covered).toNat

/-! ### Replies on TXD (R184, R187) -/

/-- The body of a reply (Table 11-3). -/
def Reply.body (r : Reply) : List Byte := r.kind :: r.tag :: (fByte r.result.num ++ fByte r.detail ++ r.data)

/-- The frame of a reply (Table 11-2). -/
def Reply.frame (r : Reply) : List Byte := 0xA5#8 :: lengthBodyCrc r.body

/-- What the transmitter does with a reply queue: it sends the reply at the head once that reply is made, and nothing while the
queue is empty or its head is not yet made (R187). -/
def transmitterOf : List Reply → Transmitter
  | [] => .idle
  | r :: _ => if r.made then .sending r.frame else .idle

/-- TXD is held high: the transmitter has nothing to send (R184). -/
def Transmitter.high : Transmitter → Bool
  | .idle => true
  | .sending _ => false

/-- A byte on the link: a start bit 0, the data bits, the least significant first, and a stop bit 1 (Table 10-1). -/
def linkBits (b : Byte) : Vector Bool 10 :=
  #v[false, b.getLsbD 0, b.getLsbD 1, b.getLsbD 2, b.getLsbD 3, b.getLsbD 4, b.getLsbD 5, b.getLsbD 6, b.getLsbD 7, true]

/-- The bits that the transmitter sends on TXD, one byte after another with no gap (R184). -/
def Transmitter.bits : Transmitter → List Bool
  | .idle => []
  | .sending frame => frame.flatMap fun b => (linkBits b).toList

/-- The transmitter follows the reply queue (R187). -/
def Hl.transmit (l : Hl) : Hl := { l with transmitter := transmitterOf l.replies }

end Sys2Proof.Machine
end

