-- ==== Sys2Proof/Machine/BusFrames.lean ====
section
/-!
DEFINITION. Frames of the station bus, character by character (R82, R83, R84, R196): those the D96 sends, and how it reads the
characters of a reply.
-/

namespace Sys2Proof

/-- A character on the bus: its start bit, 0, its data bits, the least significant first, its mark bit and its stop bit (R82). -/
def BusChar.bits (c : BusChar) : BusBits :=
  #v[false, c.value.getLsbD 0, c.value.getLsbD 1, c.value.getLsbD 2, c.value.getLsbD 3, c.value.getLsbD 4, c.value.getLsbD 5,
    c.value.getLsbD 6, c.value.getLsbD 7, c.mark, c.stop]

/-- The character that 11 bits on the bus are (R82). A start bit that reads 1 makes no fault: the character is one like any other (DESIGN
CHOICE, log 96). -/
def charOf (w : BusBits) : BusChar :=
  ⟨BitVec.ofNat 8 ((List.range 8).foldr (fun k n => (w.toList.getD (k + 1) false).toNat + 2 * n) 0), w[9], w[10]⟩

/-- A character is faulty: its stop bit reads 0, or its mark bit does not match its place (R82). -/
def BusChar.faulty (c : BusChar) (first : Bool) : Bool := !c.stop || c.mark != first

end Sys2Proof

namespace Sys2Proof.Machine

/-! ### Frames sent (R82, R83, R196) -/

/-- The address character of a frame of the D96: 0 for a broadcast (R83). -/
def BusFrame.address : BusFrame → Nat
  | .describe a => a
  | .poll a _ => a
  | .attention _ => 0
  | .closeAll => 0

/-- The body of a frame of the D96: its kind byte, and what its kind carries (Table 5-2, R196). -/
def BusFrame.body : BusFrame → List Byte
  | .describe _ => [1#8]
  | .poll _ image => 2#8 :: fOutputs image
  | .attention call => 3#8 :: fByte call
  | .closeAll => [4#8]

/-- The characters of a frame: the address with the mark bit set, then length, body and CRC with it clear, each with its stop
bit (R82, R83). -/
def busCharacters (address : Nat) (body : List Byte) : List BusChar :=
  ⟨BitVec.ofNat 8 address, true, true⟩ :: (lengthBodyCrc body).map fun b => ⟨b, false, true⟩

/-- The characters of a frame of the D96. -/
def BusFrame.characters (f : BusFrame) : List BusChar := busCharacters f.address f.body

/-- The characters of the frame that the D96 sent last. -/
def Sbc.sent (b : Sbc) : List BusChar :=
  match b.lastFrame with
  | none => []
  | some f => f.characters

/-- The bits of that frame, in the order in which they stood on the bus. -/
def Sbc.sentBits (b : Sbc) : List Bool := b.sent.flatMap fun c => c.bits.toList

/-! ### Reading a reply (R82, R84, R196) -/

/-- A reply as read. -/
inductive BusReply where
  | status (r : StatusReply)
  | descriptor (address : Nat) (d : Descriptor)
  deriving DecidableEq, Repr

/-- The address and body of a frame received, when no character is faulty, the length is that of the body, and the CRC is correct
(R82 to R84). Characters that follow the CRC of such a frame spoil it, so that none is read (DESIGN CHOICE, log 91). -/
def readFrame : List BusChar → Option (Nat × List Byte)
  | a :: n :: rest =>
    let body := (rest.map (·.value)).take n.value.toNat
    if a.faulty true || n.faulty false || rest.any (·.faulty false) then none
    else if rest.map (·.value) = body ++ leBytes 2 (crc16 (n.value :: body)).toNat && body.length = n.value.toNat then
      some (a.value.toNat, body)
    else none
  | _ => none

/-- A two-valued station input: 0 is the first value, any other the second (R196). -/
def inputBit (b : Byte) : Bool := b != 0#8

/-- A byte of a body, from its start. -/
def byteAt (body : List Byte) (k : Nat) : Byte := body.getD k 0#8

/-- A station input of a body. -/
def bitAt (body : List Byte) (k : Nat) : Bool := inputBit (byteAt body k)

/-- A temperature of a body: two bytes, low byte first, signed. -/
def tempAt (body : List Byte) (k : Nat) : Int := (byteAt body (k + 1) ++ byteAt body k).toInt

/-- A meter count of a body: three bytes, low byte first. -/
def countAt (body : List Byte) (k : Nat) : Count24 := byteAt body (k + 2) ++ byteAt body (k + 1) ++ byteAt body k

/-- The image of a STATUS body, after its kind and flags bytes, by the station's defined type; its length is fixed by the type and
the tap count (R84, R196, Table 11-7). -/
def readImage (s : Station) (body : List Byte) : Option InputImage :=
  match s.kind with
  | some .tap =>
    if body.length = 2 + 7 * s.taps then
      some (.tap ((List.range s.taps).map fun i =>
        let k := 2 + 7 * i
        ⟨bitAt body k, bitAt body (k + 1), bitAt body (k + 2), bitAt body (k + 3), countAt body (k + 4)⟩))
    else none
  | some .cellar =>
    if body.length = 30 then some (.cellar (Vector.ofFn fun i => bitAt body (2 + i)) (Vector.ofFn fun i => bitAt body (18 + i))) else none
  | some .cooling =>
    if body.length = 34 then
      some (.cooling (tempAt body 2) (Vector.ofFn fun i => bitAt body (4 + i)) (Vector.ofFn fun i => bitAt body (7 + i))
        (Vector.ofFn fun i => tempAt body (10 + 2 * i)) (Vector.ofFn fun i => bitAt body (26 + i)))
    else none
  | some .cleaning =>
    if body.length = 15 then
      some (.cleaning (Vector.ofFn fun i => bitAt body (2 + i)) (Vector.ofFn fun i =>
        ⟨bitAt body (5 + 5 * i), countAt body (6 + 5 * i), bitAt body (9 + 5 * i)⟩))
    else none
  | none => none

/-- A STATUS, after its address (Table 11-7). -/
def readStatus (s : Station) (address : Nat) (body : List Byte) : Option BusReply :=
  let flags := byteAt body 1
  (readImage s body).map fun image => .status ⟨address, flags.getLsbD 0, flags.getLsbD 1, flags.getLsbD 2, image⟩

/-- The station type a byte names. -/
def typeOf (n : Nat) : EnumField StationType :=
  if n = 0 then .val .tap else if n = 1 then .val .cellar else if n = 2 then .val .cooling else if n = 3 then .val .cleaning
  else if n = 255 then .absent else .bad n

/-- A DESCRIPTOR, after its address (Table 11-5). -/
def readDescriptor (address : Nat) (body : List Byte) : Option BusReply :=
  let count (k : Nat) : Nat := (byteAt body k).toNat
  if body.length = 9 then
    some (.descriptor address
      ⟨typeOf (byteAt body 1).toNat, (byteAt body 2).getLsbD 0, count 3, count 4, count 5, count 6, count 7, count 8⟩)
  else none

/-- The reply that characters received in an exchange read as: from the address asked, a STATUS after a POLL, a DESCRIPTOR after a
DESCRIBE (R84). -/
def Plant.readReply (p : Plant) (x : Exchange) (characters : List BusChar) : Option BusReply :=
  match readFrame characters with
  | none => none
  | some (a, body) =>
    if a != x.address then none
    else if x.purpose == .poll then (if byteAt body 0 == 130#8 then readStatus (p.station a) a body else none)
    else if byteAt body 0 == 129#8 then readDescriptor a body
    else none

/-- What came in an exchange is a miss: late, or not the reply awaited (R84), a good reply with characters behind its CRC among it
(DESIGN CHOICE, log 91). -/
def Plant.isMiss (p : Plant) (x : Exchange) (came : MissedReply) : Bool :=
  came.late || (p.readReply x (came.characters.map charOf)).isNone

end Sys2Proof.Machine
end

