-- ==== Sys2Proof/Machine/Operands.lean ====
section
/-!
DEFINITION. Requests: kinds, modes and layouts (Tables 10-6, 9-1, R194), the order of the checks (R188), ranges of operands,
and the one shared operation that takes a request and makes its reply (R187).
-/

namespace Sys2Proof.Machine

/-- A request kind: its number (R194), the body length of its layout with the two header bytes (0 for a kind with a list,
R188), and the modes in which it is taken (Table 9-1). -/
structure RequestKind where
  num : Nat
  layout : Nat
  inConfig : Bool
  inLive : Bool
  deriving DecidableEq, Repr

namespace Kind
def defineProduct : RequestKind := ⟨1, 25, true, true⟩
def defineLine : RequestKind := ⟨2, 14, true, true⟩
def loadSource : RequestKind := ⟨3, 12, true, true⟩
def unloadSource : RequestKind := ⟨4, 3, false, true⟩
def appendChain : RequestKind := ⟨5, 4, true, true⟩
def removeFromChain : RequestKind := ⟨6, 4, false, true⟩
def forceChangeover : RequestKind := ⟨7, 3, false, true⟩
def setLineService : RequestKind := ⟨8, 4, false, true⟩
def issueTicket : RequestKind := ⟨9, 14, false, true⟩
/-- CANCEL_TICKET (R38): the ticket index in 1 byte (DESIGN CHOICE, log 83). -/
def cancelTicket : RequestKind := ⟨10, 7, false, true⟩
def setTopupWindow : RequestKind := ⟨11, 4, true, true⟩
def defineTap : RequestKind := ⟨12, 11, true, true⟩
def setTap : RequestKind := ⟨13, 8, true, true⟩
def closeTap : RequestKind := ⟨14, 3, false, true⟩
def openTap : RequestKind := ⟨15, 3, false, true⟩
def startCalibration : RequestKind := ⟨16, 7, false, true⟩
def calibrationResult : RequestKind := ⟨17, 7, false, true⟩
/-- DEFINE_STATION (R86): the position block in 1 byte (DESIGN CHOICE, log 83), the tap count, a count, in 2. -/
def defineStation : RequestKind := ⟨18, 7, true, true⟩
def rescanStation : RequestKind := ⟨19, 3, true, true⟩
def traceStation : RequestKind := ⟨20, 4, true, true⟩
def scanBus : RequestKind := ⟨21, 2, true, false⟩
/-- SET_COOLING (R108): 13 bytes, its surge threshold, in litres, in 2 of them (log 61). -/
def setCooling : RequestKind := ⟨22, 13, true, true⟩
def defineTrunk : RequestKind := ⟨23, 8, true, true⟩
def clearStageTrip : RequestKind := ⟨24, 3, true, true⟩
def clearPumpFault : RequestKind := ⟨25, 3, true, true⟩
def surgeHint : RequestKind := ⟨26, 4, false, true⟩
def defineProgramme : RequestKind := ⟨27, 0, true, true⟩
def requestClean : RequestKind := ⟨28, 0, false, true⟩
def abortClean : RequestKind := ⟨29, 3, false, true⟩
def clearCircuitFault : RequestKind := ⟨30, 3, true, true⟩
def readJournal : RequestKind := ⟨31, 8, true, true⟩
def releaseJournal : RequestKind := ⟨32, 6, true, true⟩
def setJournalMark : RequestKind := ⟨33, 4, true, true⟩
def closePeriod : RequestKind := ⟨34, 2, false, true⟩
def goLive : RequestKind := ⟨35, 2, true, false⟩
def setClock : RequestKind := ⟨36, 6, true, true⟩
def stop : RequestKind := ⟨37, 2, true, true⟩
def resume : RequestKind := ⟨38, 2, true, true⟩
def identify : RequestKind := ⟨39, 2, true, true⟩
def status : RequestKind := ⟨40, 2, true, true⟩
def setLink : RequestKind := ⟨41, 6, true, true⟩
/-- READ_TABLE (R191): the first index in 1 byte (DESIGN CHOICE, log 83), the count in 2. -/
def readTable : RequestKind := ⟨42, 7, true, true⟩
def readMore : RequestKind := ⟨43, 2, true, true⟩
def fetchNotices : RequestKind := ⟨44, 4, true, true⟩
end Kind

/-- The number of request kinds (R194). -/
def kindCount : Nat := 44

/-! ### Answers -/

/-- The answer to a request: refused, with a result, a detail and data; accepted with the state it leaves and its data;
accepted with the reply still to be made (SCAN_BUS, R103); or accepted with the rate that holds once the reply is sent
(SET_LINK, R189). -/
inductive Answer where
  | refuse (result : Result) (detail : Nat) (data : List Byte)
  | accept (s : State) (data : List Byte)
  | later (s : State)
  | newRate (s : State) (data : List Byte) (rate : Rate)
  deriving DecidableEq, Repr

/-- A check of a request: whether it fails, and the result and detail of its failure. -/
abbrev Check := Bool × Result × Nat

/-- The answer of the first check that fails, else the answer given (R188). -/
def orFail : List Check → Answer → Answer
  | [], a => a
  | (fails, r, d) :: rest, a => if fails then .refuse r d [] else orFail rest a

/-- BAD_PARAM naming a field. -/
def badIf (fails : Bool) (field : Nat) : Check := (fails, .badParam, field)
/-- NOT_FOUND naming a field. -/
def absentIf (fails : Bool) (field : Nat) : Check := (fails, .notFound, field)
/-- REFUSED_STATE naming a field. -/
def stateIf (fails : Bool) (field : Nat) : Check := (fails, .refusedState, field)
/-- IN_USE naming a field. -/
def inUseIf (fails : Bool) (field : Nat) : Check := (fails, .inUse, field)
/-- FULL naming a field. -/
def fullIf (fails : Bool) (field : Nat) : Check := (fails, .full, field)

/-! ### Taking a request -/

/-- The body length received does not fit the layout (R188). -/
def misfit (h : ReqHdr) (k : RequestKind) : Bool :=
  match h.length with
  | none => false
  | some n => n != k.layout

/-- The mode check of R172. -/
def modeCheck (k : RequestKind) (live : Bool) : List Check :=
  if live then [(!k.inLive, .notConfig, 0)] else [(!k.inConfig, .notLive, 0)]

/-- The frame of a request has been accepted: the counts of R185, and the receiver hunts. -/
def Hl.accepted (l : Hl) (h : ReqHdr) : Hl :=
  { l with
    receiver := .hunting
    counts := { l.counts with
      accepted := satAdd Config.countMax l.counts.accepted 1
      noise := satAdd Config.countMax l.counts.noise h.noisy } }

/-- The frame finds the reply queue full: it is not taken and counts as an overrun (R187). -/
def Hl.overrun (l : Hl) : Hl :=
  { l with counts := { l.counts with overruns := satAdd Config.countMax l.counts.overruns 1 } }

/-- The reply queue is full (R187). -/
def Hl.repliesFull (l : Hl) : Bool := Config.replyCapacity ≤ l.replies.length

/-- A reply joins the tail of the reply queue; at the head, and made, it is sent from then on (R187). -/
def State.reply (s : State) (r : Reply) : State := { s with hl := ({ s.hl with replies := s.hl.replies ++ [r] }).transmit }

/-- The reply's kind byte: the request's kind with its top bit set (R187). -/
def replyKind (kind : Nat) : Byte := BitVec.ofNat 8 kind ||| 0x80#8

/-- The state and the reply of an answer. A refused request changes nothing (R188). -/
def State.answer (s : State) (kind : Nat) (tag : Byte) : Answer → State
  | .refuse r d data => s.reply ⟨replyKind kind, tag, true, r, d, data, none⟩
  | .accept t data => t.reply ⟨replyKind kind, tag, true, .ok, 0, data, none⟩
  | .later t => t.reply ⟨replyKind kind, tag, false, .ok, 0, [], none⟩
  | .newRate t data rate => t.reply ⟨replyKind kind, tag, true, .ok, 0, data, some rate⟩

/-- The checks of R188 before the owner's own. -/
def judge (k : RequestKind) (h : ReqHdr) (s : State) (body : State → Answer) : Answer :=
  orFail ((misfit h k, .badLength, k.layout) :: modeCheck k s.plant.live) (body s)

/-- An accepted frame whose kind names a request is taken, checked, carried out by its owner and answered in one arrival
(R187, R188). With RXD held low by a break no frame arrives (R186; log 13). -/
def takeRequest (k : RequestKind) (h : ReqHdr) (body : State → Answer) (s : State) : State :=
  if s.hl.rxdLow then s
  else
    let r : State := { s with hl := s.hl.accepted h }
    if r.hl.repliesFull then { r with hl := r.hl.overrun }
    else deliver (r.answer k.num h.tag (judge k h r body))

/-! ### Ranges of operands -/

/-- The number does not lie from `lo` to `hi`. -/
def outside (lo hi n : Nat) : Bool := n < lo || hi < n

/-- An optional number that is present does not lie from `lo` to `hi`. -/
def optOutside (lo hi : Nat) : Option Nat → Bool
  | none => false
  | some n => outside lo hi n

/-- An optional temperature that is present does not lie from `lo` to `hi` (tenths of a degree). -/
def optTempOutside (lo hi : Int) : Option Int → Bool
  | none => false
  | some t => t < lo || hi < t

/-- An enumerated field that must be present holds none of its values (R194). -/
def wrongEnum {α : Type} : EnumField α → Bool
  | .val _ => false
  | _ => true

/-- An enumerated field that may be absent holds a number outside its values (R194). -/
def wrongIfGiven {α : Type} : EnumField α → Bool
  | .bad _ => true
  | _ => false

/-- The value of an enumerated field, else a default. -/
def enumOr {α : Type} (d : α) : EnumField α → α
  | .val a => a
  | _ => d

/-- The value of an enumerated field, if it holds one. -/
def enumVal? {α : Type} : EnumField α → Option α
  | .val a => some a
  | _ => none

end Sys2Proof.Machine
end

