-- ==== Sys2Proof/Machine/Meaning.lean ====
section
/-!
DEFINITION. The shapes of a command's meaning: a request, and an arrival of another kind.
-/

namespace Sys2Proof.Machine

/-- A request carried out by its owner, and the data of its reply. -/
def done (s : State) (p : Plant) (data : List Byte) : Answer := .accept { s with plant := p } data

/-- A request is taken (R187, R188). -/
def request (k : RequestKind) (h : ReqHdr) (body : State → Answer) (s : State) : Host.Outcome State Fault Refusal :=
  .next (takeRequest k h body s)

/-- An arrival at a block other than HL: its effect, and the notices it raised (R192). -/
def arrive (f : Plant → Plant) (s : State) : State := deliver { s with plant := f s.plant }

/-- An arrival of a kind that is no request. -/
def event (f : Plant → Plant) (s : State) : Host.Outcome State Fault Refusal := .next (arrive f s)

/-- An arrival that arises only under a condition; otherwise nothing changes (log 2, log 3). -/
def eventIf (arises : Bool) (f : Plant → Plant) (s : State) : Host.Outcome State Fault Refusal :=
  if arises then event f s else .next s

end Sys2Proof.Machine
end

