-- ==== Sys2Proof/Machine/BusEvents.lean ====
section
/-!
DEFINITION. What the station bus brings (chapter 5): visits, attention calls, CLOSE_ALL, replies, misses, the end of a scan.
-/

namespace Sys2Proof.Machine

/-- The next frame of the visits or of a scan (R88, R89, R103). -/
def Plant.nextVisit (p : Plant) : Plant :=
  match p.sbc.phase with
  | .visit n => (p.modSbc fun b => { b with phase := afterVisit n }).visit n
  | .scanning n => if n ≤ 30 then (p.modSbc fun b => { b with phase := .scanning (n + 1) }).sendDescribe n .scan else p
  | .calls _ => p

/-- STATION_VISIT (R89): it arises while the bus is free (log 3). -/
def execStationVisit (s : State) : Host.Outcome State Fault Refusal := eventIf s.plant.busFree Plant.nextVisit s

/-- The number of attention calls made in the round, while the round is in its second part (R90). -/
def Plant.callsMade (p : Plant) : Option Nat :=
  match p.sbc.phase with
  | .calls k => if k < 4 then some k else none
  | _ => none

/-- An attention call and its contention slot (R90). -/
def Plant.attentionCall (p : Plant) (k : Nat) (contenders : List (BitVec 5)) : Plant :=
  let q := p.modSbc fun b => { b with lastFrame := some (.attention k) }
  let winner := slotRead 5 contenders
  if winner = 31 || winner = 0 then q.roundEnd else (q.modSbc fun b => { b with phase := .calls (k + 1) }).serve winner

/-- ATTENTION_CALL (R90): it arises after the visits of a round, while the bus is free (log 3). -/
def execAttentionCall (contenders : List (BitVec 5)) (s : State) : Host.Outcome State Fault Refusal :=
  eventIf (s.plant.busFree && s.plant.callsMade.isSome) (fun p => p.attentionCall (p.callsMade.getD 0) contenders) s

/-- CLOSE_ALL (R102): it goes when it is due and no exchange is under way. -/
def execCloseAll (s : State) : Host.Outcome State Fault Refusal :=
  eventIf (s.plant.sbc.closeAllDue && s.plant.sbc.exchange.isNone) Plant.sendCloseAll s

/-- A miss ends the exchange (R84). -/
def Plant.missExchange (p : Plant) (x : Exchange) (characters : Bool) : Plant := (p.takeMiss x characters).endExchange

/-- A STATUS in answer to an exchange (R84, R96, R97); one that is not the answer awaited is a miss. -/
def Plant.statusReply (p : Plant) (x : Exchange) (r : StatusReply) : Plant :=
  if x.purpose == .poll && r.address = x.address && imageFits (p.station x.address) r.image then
    (p.takeStatus x.address r).endExchange
  else p.missExchange x true

/-- STATUS_ACCEPTED (R97): characters received while no reply is awaited are discarded (R82). -/
def execStatusAccepted (r : StatusReply) (s : State) : Host.Outcome State Fault Refusal :=
  match s.plant.sbc.exchange with
  | none => .next s
  | some x => event (fun p => (p.statusReply x r).csSettle) s

/-- A DESCRIPTOR in answer to an exchange (R84, R91, R95, R103); one that is not the answer awaited is a miss. One in answer to the DESCRIBE
of a station that is no longer JOINING, as it was redefined in the exchange, is not stored, and ends the exchange (DESIGN CHOICE, log 97).
-/
def Plant.descriptorReply (p : Plant) (x : Exchange) (address : Nat) (d : Descriptor) : Plant :=
  if address != x.address then p.missExchange x true
  else match x.purpose with
    | .poll => p.missExchange x true
    | .describe => if (p.station address).state == .joining then p.takeDescriptor address d else p.endExchange
    | .clearAttention => p.endExchange
    | .scan => (p.scanDescriptor address d).endExchange

/-- DESCRIPTOR_ACCEPTED (R95). -/
def execDescriptorAccepted (address : Nat) (d : Descriptor) (s : State) : Host.Outcome State Fault Refusal :=
  match s.plant.sbc.exchange with
  | none => .next s
  | some x => event (fun p => (p.descriptorReply x address d).csSettle) s

/-- REPLY_MISS (R82, R84): no reply, a late one, whose characters count as noise too (log 72), or characters that do not read as the reply
awaited. Characters that do are the arrival of another command, and change nothing here (log 3). -/
def execReplyMiss (came : MissedReply) (s : State) : Host.Outcome State Fault Refusal :=
  match s.plant.sbc.exchange with
  | none => .next s
  | some x =>
    if s.plant.isMiss x came then event (fun p => (p.missExchange x (!came.characters.isEmpty)).csSettle) s else .next s

/-- The counts a station reports, as its type has them (R103, Table 5-2; log 15). -/
def reportedCounts (d : Descriptor) : List Byte :=
  match d.kind with
  | .val .tap => fByte d.taps
  | .val .cellar => fByte d.couplers ++ fByte d.outlets
  | .val .cooling => fByte d.stages ++ fByte d.trunks
  | .val .cleaning => fByte d.circuits
  | _ => []

/-- The data of a SCAN_BUS reply (R103; log 15). -/
def scanData (l : List (Nat × Descriptor)) : List Byte :=
  fList (fun e => fByte e.1 ++ fByte (enumFieldNum stationTypeNum e.2.kind) ++ reportedCounts e.2 ++ fFlag e.2.restarted) l

/-- The reply that waits to be made is made, and is sent once it stands at the head (R103, R187). -/
def Hl.makeReply (l : Hl) (data : List Byte) : Hl :=
  { l with replies := l.replies.map fun r : Reply => if r.made then r else { r with made := true, data := data } : Hl }.transmit

/-- Every address of a scan has been asked and the last exchange has ended: what the scan has recorded (R103). -/
def Plant.scanned (p : Plant) : Option (List (Nat × Descriptor)) :=
  match p.sbc.phase with
  | .scanning n => if 30 < n && p.sbc.exchange.isNone then p.sbc.scan else none
  | _ => none

/-- SCAN_END (R103): the reply is made, and rounds resume with the round counter as it was. -/
def execScanEnd (s : State) : Host.Outcome State Fault Refusal :=
  match s.plant.scanned with
  | none => .next s
  | some l =>
    .next { s with
      hl := s.hl.makeReply (scanData l)
      plant := s.plant.modSbc fun b => { b with scan := none, phase := .visit 1 } }

end Sys2Proof.Machine
end

