-- ==== Sys2Proof/Machine/BusRequests.lean ====
section
/-!
DEFINITION. The requests of chapter 5: station definition, rescan, trace, scan.
-/

namespace Sys2Proof.Machine

/-- What a DEFINE_STATION asks for: the type, and the tap count and position block where the type has them (R86). -/
structure StationDef where
  kind : Option StationType
  taps : Nat
  block : Nat
  deriving DecidableEq, Repr

/-- The definition a request names; a field its type does not have is not read (R86). -/
def stationDef (kind : Option StationType) (taps block : Nat) : StationDef :=
  ⟨kind, if kind == some .tap then taps else 0, if kind == some .cellar then block else 0⟩

/-- The entry already holds the definition. -/
def Station.holdsDef (s : Station) (d : StationDef) : Bool :=
  stationDef s.kind s.taps s.block == d

/-- The number of other addresses defined with a type. -/
def Plant.othersOfType (p : Plant) (a : Nat) (t : StationType) : Nat := (addresses.filter fun b => b != a && p.isType b t).length

/-- The largest number of stations of a type (R86). -/
def stationLimit : StationType → Nat
  | .tap => 24
  | .cellar => 4
  | .cooling => 1
  | .cleaning => 1

/-- The definition would make one station of its type too many (R86). -/
def Plant.typeFull (p : Plant) (a : Nat) (d : StationDef) : Bool :=
  match d.kind with
  | some t => stationLimit t ≤ p.othersOfType a t
  | none => false

/-- The block is bound to another defined station (R3). -/
def Plant.blockHeld (p : Plant) (a : Nat) (d : StationDef) : Bool :=
  d.kind == some .cellar && addresses.any fun b => b != a && p.isType b .cellar && (p.station b).block == d.block

/-- In LIVE, a position of the cellar station is not VACANT, or a defined line names the station (R3). -/
def Plant.cellarHeld (p : Plant) (a : Nat) : Bool :=
  p.live && p.isType a .cellar
    && ((p.positionsOf a).any (fun i => (p.source i).state != .vacant) || !(p.linesOfStation a).isEmpty)

/-- The request takes the type TAP from a station whose queue is not empty (R40). -/
def Plant.queueHeld (p : Plant) (a : Nat) (d : StationDef) : Bool :=
  p.isType a .tap && d.kind != some .tap && !(p.queue a).isEmpty

/-- In LIVE, a tap names the station and the request changes the type, or lowers the tap count to a tap index in use or below
(R86). -/
def Plant.tapsHeld (p : Plant) (a : Nat) (d : StationDef) : Bool :=
  p.live && p.isType a .tap
    && (p.tapsOfStation a).any fun i =>
      d.kind != some .tap || (match (p.tap i).station with | some (_, k) => d.taps ≤ k | none => false)

/-- In LIVE, the station is the CLEANING station and the job queue holds a job (R86). -/
def Plant.cleaningHeld (p : Plant) (a : Nat) : Bool := p.live && p.isType a .cleaning && !p.cs.jobs.isEmpty

/-- In LIVE, the address holds the COOLING station and the request changes its type or removes it (R86). -/
def Plant.coolingHeld (p : Plant) (a : Nat) (d : StationDef) : Bool := p.live && p.isType a .cooling && d.kind != some .cooling

/-- The entry after a redefinition (R86); the reported type and counts are those of the last descriptor received (Table 5-3). -/
def Station.redefined (s : Station) (d : StationDef) : Station :=
  match d.kind with
  | none => Station.unused
  | some t => { Station.unused with kind := some t, taps := d.taps, block := d.block, reported := s.reported }

/-- An ACTIVE station is lost to a redefinition (R86, R87). -/
def Plant.loseRedefined (p : Plant) (a : Nat) : Plant :=
  if p.active a then (p.modStation a fun s => { s with state := .absent }).lossReport a else p

/-- The positions of an address follow its new definition (R3). -/
def Plant.rebind (p : Plant) (a : Nat) (d : StationDef) : Plant :=
  let q := (p.positionsOf a).foldl Plant.unbind p
  if d.kind == some .cellar then (List.range 16).foldl (fun r k => r.bind (16 * d.block + k) a k) q else q

/-- A redefinition that changes the entry (R86, R3, R40; log 20). A TAP station that stays TAP keeps its queue and its product
marks (R49; log 55). -/
def Plant.redefineStation (p : Plant) (a : Nat) (d : StationDef) : Plant :=
  let old := p.station a
  let sameBlock : Bool := old.kind == some .cellar && d.kind == some .cellar && old.block == d.block
  let q := (p.loseRedefined a).modStation a fun s => s.redefined d
  let r := if sameBlock then q else q.rebind a d
  let t := if old.kind == some .tap && d.kind == some .tap then r else (r.setQueue a []).setMarks a 0
  (t.raise .stationState a (if d.kind.isSome then StationState.num .absent else 255) LossCause.redefined.num).refreshTaps (t.tapsOfStation a)

/-- The definition already held (R86): a MISMATCH station returns to ABSENT. -/
def Plant.keepStation (p : Plant) (a : Nat) : Plant :=
  p.modStation a fun s => if s.state == .mismatch then { s with state := .absent } else s

/-- DEFINE_STATION (R86). A request that names the definition held makes no FULL or IN_USE check: it is answered OK, the CLEANING
station with a queued job in LIVE included (log 66). Its IN_USE refusals name field 1, the address, but for the block another
station holds, field 4 (DESIGN CHOICE, log 75). -/
def execDefineStation (h : ReqHdr) (address : Nat) (kind : EnumField StationType) (taps block : Nat) (s : State) :
    Host.Outcome State Fault Refusal :=
  request Kind.defineStation h (fun s =>
    let p := s.plant
    let d := stationDef (enumVal? kind) taps block
    let changes := !(p.station address).holdsDef d
    orFail
      [badIf (outside 1 30 address) 1, badIf (wrongIfGiven kind) 2, badIf (d.kind == some .tap && outside 1 4 taps) 3,
       badIf (d.kind == some .cellar && 3 < block) 4, fullIf (changes && p.typeFull address d) 2,
       stateIf (p.coolingHeld address d) 2, inUseIf (changes && p.blockHeld address d) 4,
       inUseIf (changes && (p.cellarHeld address || p.queueHeld address d || p.tapsHeld address d || p.cleaningHeld address)) 1]
      (done s (if changes then (p.redefineStation address d).csSettle else p.keepStation address) [])) s

/-- A station is to give its initial values at its next POLL; a second request before they arrive changes nothing (R99). -/
def Station.rescanned (x : Station) : Station := if x.initialPending then x else { x with dueNext := true, initialPending := true }

/-- RESCAN_STATION (R99). -/
def execRescanStation (h : ReqHdr) (address : Nat) (s : State) : Host.Outcome State Fault Refusal :=
  request Kind.rescanStation h (fun s =>
    let p := s.plant
    orFail [absentIf (p.station address).kind.isNone 1, stateIf (!p.active address) 1]
      (done s (p.modStation address Station.rescanned) [])) s

/-- The trace flag of one station is set and every other's is cleared, or its own is cleared (R100). -/
def Plant.traceStation (p : Plant) (address : Nat) (on : Bool) : Plant :=
  if on then addresses.foldl (fun q b => q.modStation b fun x => { x with trace := b == address }) p
  else p.modStation address fun x => { x with trace := false }

/-- TRACE_STATION (R100). -/
def execTraceStation (h : ReqHdr) (address : Nat) (on : EnumField Bool) (s : State) : Host.Outcome State Fault Refusal :=
  request Kind.traceStation h (fun s =>
    let p := s.plant
    orFail [absentIf (p.station address).kind.isNone 1, badIf (wrongEnum on) 2]
      (done s (p.traceStation address (enumOr false on)) [])) s

/-- SCAN_BUS (R103): the scan begins when the round in progress has ended; its reply is made then (SCAN_END). -/
def execScanBus (h : ReqHdr) (s : State) : Host.Outcome State Fault Refusal :=
  request Kind.scanBus h (fun s =>
    orFail [inUseIf s.plant.sbc.scan.isSome Config.noFieldDetail]
      (.later { s with plant := s.plant.modSbc fun b => { b with scan := some [] } })) s

end Sys2Proof.Machine
end

