-- ==== Sys2Proof/Machine/CellarRequests.lean ====
section
/-!
DEFINITION. The requests of chapter 1: products, lines, sources, chains, changeover and line service.
-/

namespace Sys2Proof.Machine

/-- Another product entry holds the code (R2). -/
def Plant.codeHeld (p : Plant) (i code : Nat) : Bool := (List.range 32).any fun k => k != i && p.code k == some code

/-- A defined line names the product (R2). -/
def Plant.lineNames (p : Plant) (i : Nat) : Bool := (List.range 48).any fun l => (p.line l).map (·.product) == some i

/-- A position that is not VACANT holds the product (R2). -/
def Plant.sourceHolds (p : Plant) (i : Nat) : Bool := (List.range 64).any fun k => (p.source k).keg.map (·.product) == some i

/-- DEFINE_PRODUCT (R2). -/
def execDefineProduct (h : ReqHdr) (index code : Nat) (name : List Byte) (tolerance : Option Nat) (threshold : Nat) (s : State) :
    Host.Outcome State Fault Refusal :=
  request Kind.defineProduct h (fun s =>
    let p := s.plant
    orFail
      [badIf (31 < index) 1, badIf (outside 1 65534 code) 2, badIf (12 < name.length) 3, badIf (optOutside 5 50 tolerance) 4,
       badIf (outside 100 100000 threshold) 5, inUseIf (p.codeHeld index code) 2,
       inUseIf (p.live && (p.lineNames index || p.sourceHolds index)) 1]
      (done s (p.setProduct index (some ⟨code, name, tolerance.getD 15, threshold⟩)) [])) s

/-- Another defined line holds the outlet (R8). -/
def Plant.outletHeld (p : Plant) (line station index : Nat) : Bool :=
  (List.range 48).any fun l => l != line && (p.line l).map (fun x => (x.station, x.index)) == some (station, index)

/-- The number of other defined lines a trunk carries (R8). -/
def Plant.linesOnTrunk (p : Plant) (line trunk : Nat) : Nat :=
  ((List.range 48).filter fun l => l != line && (p.line l).map (·.trunk) == some trunk).length

/-- The declared content may be declared (R8). -/
def declarable (live : Bool) : EnumField Content → Bool
  | .val .beer => !live
  | .val .water => true
  | .val .unproven => true
  | _ => false

/-- The line's chain is not empty and a field of its definition changes (R8). -/
def Plant.chainBars (p : Plant) (line : Nat) (changes : Line → Bool) : Bool :=
  match p.line line with
  | some x => !x.chain.isEmpty && changes x
  | none => false

/-- A cleaning job names the line (R8). -/
def Plant.jobNames (p : Plant) (line : Nat) : Bool := ((p.line line).bind (·.job)).isSome

/-- The address is that of an ACTIVE cellar station (R8). -/
def Plant.cellarActive (p : Plant) (a : Nat) : Bool := p.isType a .cellar && p.active a

/-- The entry DEFINE_LINE writes (R8). -/
def Plant.definedLine (p : Plant) (line product trunk station index volume : Nat) (auto oos : Bool) (content : Content) : Line :=
  let fresh : Line :=
    { product := product, trunk := trunk, station := station, index := index, volume := volume, auto := auto,
      state := .outOfService, content := content, unsupervised := !p.cellarActive station, job := none, chain := [], change := none,
      declaredOut := oos, outlet := ⟨none, .closed, false⟩ }
  match p.line line with
  | none => fresh
  | some x => { fresh with state := x.state, chain := x.chain, job := x.job, change := x.change }

/-- DEFINE_LINE (R8). PE's view follows the entry, without a notice (log 16). -/
def execDefineLine (h : ReqHdr) (line product trunk station index volume : Nat) (auto : EnumField Bool) (content : EnumField Content)
    (oos : EnumField Bool) (s : State) : Host.Outcome State Fault Refusal :=
  request Kind.defineLine h (fun s =>
    let p := s.plant
    orFail
      [badIf (47 < line) 1, badIf (31 < product) 2, badIf (7 < trunk) 3, badIf (outside 1 30 station) 4, badIf (11 < index) 5,
       badIf (outside 200 20000 volume) 6, badIf (wrongEnum auto) 7, badIf (!declarable p.live content) 8, badIf (wrongEnum oos) 9,
       inUseIf (p.outletHeld line station index) 5, inUseIf (p.chainBars line fun x => x.product != product) 2,
       inUseIf (p.chainBars line fun x => x.station != station) 4, inUseIf (p.jobNames line) 1,
       stateIf (p.live && (match p.line line with | some x => x.state != .outOfService | none => false)) 1,
       absentIf (p.live && (p.product product).isNone) 2, absentIf (p.live && !(p.trunk trunk).inUse) 3,
       absentIf (p.live && !p.isType station .cellar) 4, fullIf (12 ≤ p.linesOnTrunk line trunk) 3]
      (done s
        (((p.setLine line (p.definedLine line product trunk station index volume (enumOr true auto) (enumOr false oos) (enumOr .unproven content))).refreshOutlet
          line).peLineEvent line none) [])) s

/-- The coupler's keg-present input shows a keg (R4). -/
def Plant.kegPresent (p : Plant) (i : Nat) : Bool :=
  match (p.source i).bound with
  | none => false
  | some (a, k) =>
    match (p.station a).inputs with
    | some (.cellar kegs _) => kegs.toList.getD k false
    | _ => false

/-- The position's cellar station is ACTIVE. -/
def Plant.sourceOnline (p : Plant) (i : Nat) : Bool :=
  match (p.source i).bound with
  | none => false
  | some (a, _) => p.active a

/-- LOAD_SOURCE (R4). -/
def execLoadSource (h : ReqHdr) (position product nominal : Nat) (fillRef : Word32) (s : State) : Host.Outcome State Fault Refusal :=
  request Kind.loadSource h (fun s =>
    let p := s.plant
    orFail
      [absentIf (p.source position).bound.isNone 1, absentIf (p.product product).isNone 2, badIf (outside 1000 1000000 nominal) 3,
       stateIf ((p.source position).state != .vacant) 1, stateIf (!p.sourceOnline position || !p.kegPresent position) 1]
      (done s
        ((p.modSource position fun x =>
          { x with keg := some ⟨product, nominal, 0, fillRef, p.clock, p.now⟩, line := none, closePending := false, removed := false }).setSourceState
            position .loaded) [])) s

/-- SPENT or FAULT. -/
def SourceState.ended : SourceState → Bool
  | .spent | .fault => true
  | _ => false

/-- UNLOAD_SOURCE (R5). -/
def execUnloadSource (h : ReqHdr) (position : Nat) (s : State) : Host.Outcome State Fault Refusal :=
  request Kind.unloadSource h (fun s =>
    let p := s.plant
    let x := p.source position
    orFail
      [absentIf x.bound.isNone 1, stateIf (x.state == .vacant) 1, inUseIf (x.state == .onLine) 1,
       inUseIf (x.state.ended && x.closePending) 1]
      (done s (if x.state == .loaded then p.unloadLoaded position else p.vacate position) [])) s

/-- APPEND_CHAIN (R11). -/
def execAppendChain (h : ReqHdr) (line position : Nat) (s : State) : Host.Outcome State Fault Refusal :=
  request Kind.appendChain h (fun s =>
    let p := s.plant
    let x := p.source position
    orFail
      [absentIf (p.line line).isNone 1, absentIf x.bound.isNone 2, stateIf (x.state != .loaded) 2,
       badIf (x.bound.map (·.1) != (p.line line).map (·.station) || x.keg.map (·.product) != (p.line line).map (·.product)) 2,
       inUseIf x.line.isSome 2, fullIf (Config.chainCapacity ≤ ((p.line line).map fun l => l.chain.length).getD 0) 1]
      (done s
        (((p.modLine line fun l => { l with chain := l.chain ++ [position] }).modSource position fun y =>
          { y with line := some line }).raiseSource position) [])) s

/-- The position stands in the line's chain. -/
def Plant.inChain (p : Plant) (line position : Nat) : Bool :=
  match p.line line with
  | some x => x.chain.contains position
  | none => false

/-- REMOVE_FROM_CHAIN (R12). -/
def execRemoveFromChain (h : ReqHdr) (line position : Nat) (s : State) : Host.Outcome State Fault Refusal :=
  request Kind.removeFromChain h (fun s =>
    let p := s.plant
    orFail
      [absentIf (p.line line).isNone 1, absentIf (!p.inChain line position) 2, inUseIf ((p.source position).state == .onLine) 2]
      (done s (p.leaveChain position) [])) s

/-- The line's state, if it is defined. -/
def Plant.lineState (p : Plant) (l : Nat) : Option LineState := (p.line l).map (·.state)

/-- The line's cellar station is ACTIVE. -/
def Plant.lineOnline (p : Plant) (l : Nat) : Bool :=
  match p.line l with
  | some x => p.active x.station
  | none => false

/-- A changeover is forced (R21). -/
def Plant.forceChangeover (p : Plant) (line : Nat) : Plant :=
  if p.lineState line == some .serving then
    match p.headOf line with
    | some hd => (((p.dropChange line).setContent line .gas).endKeg hd .spent).nextKeg line true (some hd) (some .kegOut)
    | none => (p.dropChange line).nextKeg line true none (some .kegOut)
  else p.nextKeg line true none none

/-- FORCE_CHANGEOVER (R21). -/
def execForceChangeover (h : ReqHdr) (line : Nat) (s : State) : Host.Outcome State Fault Refusal :=
  request Kind.forceChangeover h (fun s =>
    let p := s.plant
    orFail
      [absentIf (p.line line).isNone 1, stateIf p.stopped 1, stateIf (!p.lineOnline line) 1,
       stateIf (p.lineState line != some .serving && p.lineState line != some .dry) 1,
       stateIf (p.lineState line == some .dry && p.chainEmpty line) 1]
      (done s (p.forceChangeover line).csSettle [])) s

/-- SET_LINE_SERVICE may take the line out (R22). -/
def LineState.mayLeave : LineState → Bool
  | .serving | .dry | .locked => true
  | _ => false

/-- A line is taken out of service (R22). -/
def Plant.lineOut (p : Plant) (line : Nat) : Plant :=
  (p.dropChange line).moveLine line .outOfService (if p.lineState line == some .serving then some .cancelled else none)

/-- A line is brought into service by its content (R22). -/
def Plant.lineIn (p : Plant) (line : Nat) : Plant :=
  match p.line line with
  | none => p
  | some x =>
    match x.content with
    | .beer => if (p.onLineHead x).isSome then p.moveLine line .serving none else p.moveLine line .dry none
    | .gas => (p.headLoaded line).moveLine line .dry none
    | _ => (p.headLoaded line).moveLine line .locked none

/-- SET_LINE_SERVICE (R22). A REFUSED_STATE refusal names field 1, the line (DESIGN CHOICE, log 92). -/
def execSetLineService (h : ReqHdr) (line : Nat) (direction : EnumField Direction) (s : State) : Host.Outcome State Fault Refusal :=
  request Kind.setLineService h (fun s =>
    let p := s.plant
    let out : Bool := enumOr Direction.out direction == .out
    orFail
      [absentIf (p.line line).isNone 1, badIf (wrongEnum direction) 2,
       stateIf (out && !(((p.lineState line).map LineState.mayLeave).getD false)) 1,
       stateIf (!out && p.lineState line != some .outOfService) 1]
      (done s (if out then p.lineOut line else p.lineIn line).csSettle [])) s

end Sys2Proof.Machine
end

