-- ==== Sys2Proof/Machine/CleaningRequests.lean ====
section
/-!
DEFINITION. The requests of chapter 7: programmes, cleaning jobs, circuit faults.
-/

namespace Sys2Proof.Machine

/-- A number field a step's action uses is absent or outside its range (R130). -/
def needOutside (lo hi : Nat) : Option Nat → Bool
  | none => true
  | some n => outside lo hi n

/-- The on-fail field of a step that does not use it: a number outside its values is refused all the same (R194). -/
def strayOnFail (f : StepField) : Option Nat := if wrongIfGiven f.onFail then some 7 else none

/-- The number of the first field of a step that is out of the range of Table 7-1, given its place in the list (R130). -/
def stepFault (k : Nat) (f : StepField) : Option Nat :=
  match f.action with
  | .val .soak =>
    if f.medium != .absent then some 2 else if needOutside 10 3600 f.duration then some 3 else strayOnFail f
  | .val .push =>
    if wrongEnum f.medium then some 2 else if needOutside 10 40 f.factor then some 4 else strayOnFail f
  | .val .recirculate | .val .pulse =>
    if wrongEnum f.medium then some 2 else if needOutside 10 3600 f.duration then some 3 else strayOnFail f
  | .val .prove =>
    if wrongEnum f.medium then some 2
    else if needOutside 100 100000 f.threshold then some 5
    else if needOutside 30 1800 f.limit then some 6
    else if wrongEnum f.onFail || (enumVal? f.onFail == some .again && k = 0) then some 7
    else if enumVal? f.onFail == some .again && needOutside 1 3 f.count then some 8
    else none
  | _ => some 1

/-- The first failure of a list of steps: the step's place and its field (R130). -/
def listFault : Nat → List StepField → Option (Nat × Nat)
  | _, [] => none
  | k, f :: rest =>
    match stepFault k f with
    | some n => some (k, n)
    | none => listFault (k + 1) rest

/-- The step a checked item gives; a field its action does not use is ignored (Table 7-1; log 38). -/
def StepField.toStep (f : StepField) : Step :=
  let medium := enumOr .water f.medium
  match enumOr .soak f.action with
  | .push => .push medium (f.factor.getD 0)
  | .recirculate => .recirculate medium (f.duration.getD 0)
  | .soak => .soak (f.duration.getD 0)
  | .pulse => .pulse medium (f.duration.getD 0)
  | .prove => .prove medium (f.threshold.getD 0) (f.limit.getD 0) (if enumVal? f.onFail == some .again then some (f.count.getD 0) else none)

/-- The detail "naming the step and field" of a list's first failure (R130; log 7). -/
def faultDetail : Option (Nat × Nat) → Nat
  | some (k, n) => Config.stepFieldDetail k n
  | none => 0

/-- An unfinished job names the programme (R130). -/
def Plant.programmeHeld (p : Plant) (i : Nat) : Bool := p.cs.jobs.any fun j => j.programme = i

/-- DEFINE_PROGRAMME (R130). -/
def execDefineProgramme (h : ReqHdr) (programme : Nat) (steps : Option (List StepField)) (s : State) :
    Host.Outcome State Fault Refusal :=
  request Kind.defineProgramme h (fun s =>
    let p := s.plant
    let fields := steps.getD []
    let list := fields.map StepField.toStep
    orFail
      [badIf (5 < programme) 1, badIf (12 < fields.length) 2, badIf (listFault 0 fields).isSome (faultDetail (listFault 0 fields)),
       inUseIf (p.live && p.programmeHeld programme) 1, badIf (p.live && !stepsValid list) 2]
      (done s (p.setProgramme programme (steps.map fun _ => ⟨list, stepsValid list⟩)) [])) s

/-- The first line of a list that a condition holds for. -/
def firstLine (lines : List Nat) (f : Nat → Bool) : Option Nat := lines.find? f

/-- A check on the lines of a list, with the first line it fails for as its detail (R134). -/
def lineCheck (r : Result) (lines : List Nat) (f : Nat → Bool) : Check := ((firstLine lines f).isSome, r, (firstLine lines f).getD 0)

/-- A line of the list names it twice. -/
def twice (lines : List Nat) (l : Nat) : Bool := 1 < lines.count l

/-- The line is defined and runs through another trunk (R134). -/
def Plant.otherTrunk (p : Plant) (trunk l : Nat) : Bool :=
  match p.line l with
  | some x => x.trunk != trunk
  | none => false

/-- The programme a number names is return-only: defined, with no step (R129). -/
def Plant.returnOnly (p : Plant) (i : Nat) : Bool := (p.programme i).isSome && (p.stepsOf i).isEmpty

/-- The job ids after an id, in their order: 254 is followed by 1 (R134). -/
def idAfter (id : Nat) : Nat := if 254 ≤ id then 1 else id + 1

/-- The first id from one on that no unfinished job holds (R134): a held id is passed over when a request takes its id, not when
the next job id advances (log 68). Eight jobs never hold nine ids in a row. -/
def Plant.freeId (p : Plant) : Nat → Nat → Nat
  | 0, id => id
  | n + 1, id => if (p.job id).isSome then p.freeId n (idAfter id) else id

/-- The job record of an accepted request (R134); its trunk state starts as the trunk's (log 29). -/
def Plant.newJob (p : Plant) (id trunk : Nat) (lines : List Nat) (programme : Nat) : Job where
  id := id
  trunk := trunk
  lines := lines
  programme := programme
  state := .queued
  pausedFrom := none
  step := none
  repeats := 0
  circuit := none
  requestedAt := p.clock
  chemical := false
  proof := false
  returnLine := none
  base := none
  trunkState := (p.trunk trunk).state
  abortCause := none
  flushFailed := false
  remaining := lines
  capSet := []
  timer := none
  phase := none
  kept := none
  keptPhase := none
  sampled := 0
  consecutive := 0

/-- A job joins the queue (R134); the next job id is then the one behind the id taken (log 68). -/
def Plant.addJob (p : Plant) (id trunk : Nat) (lines : List Nat) (programme : Nat) : Plant :=
  let q : Plant := { p with cs := { p.cs with jobs := p.cs.jobs ++ [p.newJob id trunk lines programme], nextJob := idAfter id } }
  (lines.foldl (fun r l => r.modLine l fun x => { x with job := some id }) q).raise .jobState id JobState.queued.num 0

/-- REQUEST_CLEAN (R134). -/
def execRequestClean (h : ReqHdr) (trunk : Nat) (lines : List Nat) (programme : Nat) (s : State) :
    Host.Outcome State Fault Refusal :=
  request Kind.requestClean h (fun s =>
    let p := s.plant
    let sorted := (List.range 48).filter fun l => lines.contains l
    let id := p.freeId Config.jobCapacity p.cs.nextJob
    orFail
      [badIf (7 < trunk) 1, badIf (lines.isEmpty || 12 < lines.length) 2, lineCheck .badParam lines (fun l => 47 < l),
       lineCheck .badParam lines (twice lines), lineCheck .badParam lines (p.otherTrunk trunk),
       lineCheck .notFound lines (fun l => (p.line l).isNone), absentIf (!(p.trunk trunk).inUse) 1,
       absentIf (p.programme programme).isNone 3, absentIf (p.addressOf .cleaning).isNone Config.noFieldDetail,
       stateIf (!((p.programme programme).map (·.valid)).getD false) 3, stateIf ((p.tapsOfLines lines).isEmpty) 2,
       lineCheck .refusedState lines (fun l => p.returnOnly programme && (p.line l).map (·.content) != some .water),
       lineCheck .inUse lines (fun l => ((p.line l).bind (·.job)).isSome),
       fullIf (Config.jobCapacity ≤ p.cs.jobs.length) Config.noFieldDetail]
      (done s (p.addJob id trunk sorted programme).csSettle (fByte id))) s

/-- A job is aborted by the host (R152). -/
def Plant.hostAbort (p : Plant) (j : Job) : Plant :=
  if j.state == .queued then p.finishJob j .aborted (some .host) .notRun else p.abortJob j.id .host

/-- ABORT_CLEAN (R152). -/
def execAbortClean (h : ReqHdr) (job : Nat) (s : State) : Host.Outcome State Fault Refusal :=
  request Kind.abortClean h (fun s =>
    let p := s.plant
    orFail [absentIf (p.job job).isNone 1, stateIf ((p.job job).map (·.state) == some .flushing) 1]
      (done s (match p.job job with | some j => (p.hostAbort j).csSettle | none => p) [])) s

/-- CLEAR_CIRCUIT_FAULT (R153). -/
def execClearCircuitFault (h : ReqHdr) (circuit : Nat) (s : State) : Host.Outcome State Fault Refusal :=
  request Kind.clearCircuitFault h (fun s =>
    let p := s.plant
    orFail [badIf (1 < circuit) 1, stateIf ((p.circuit circuit).state != .fault) 1]
      (done s (p.modCircuit circuit fun c => { c with state := .free, faultCause := none }).csSettle [])) s

end Sys2Proof.Machine
end

