-- ==== Sys2Proof/Machine/CoolingRequests.lean ====
section
/-!
DEFINITION. The requests of chapter 6: cooling settings, trunks, trips, pump faults, the surge hint.
-/

namespace Sys2Proof.Machine

/-- A minimum time a PROGRAMMED choice carries is absent or out of range (R108, Table 6-1): such a choice carries
both (DESIGN CHOICE, log 76). -/
def minTimeBad (choice : EnumField MinTimes) (t : Option Nat) : Bool :=
  enumVal? choice == some .programmed && (match t with | none => true | some n => outside 60 900 n)

/-- The minimum times in force after a choice (R108). -/
def chosenTimes (old : Option (Nat × Nat)) (choice : EnumField MinTimes) (minOn minOff : Option Nat) : Option (Nat × Nat) :=
  match enumVal? choice with
  | none => old
  | some .standard => none
  | some .programmed => some (minOn.getD 0, minOff.getD 0)

/-- SET_COOLING (R108). -/
def execSetCooling (h : ReqHdr) (setpoint : Option Int) (threshold : Option Nat) (offset : Option Int) (choice : EnumField MinTimes)
    (minOn minOff : Option Nat) (s : State) : Host.Outcome State Fault Refusal :=
  request Kind.setCooling h (fun s =>
    orFail
      [badIf (optTempOutside (-40) 20 setpoint) 1, badIf (optOutside 5 100 threshold) 2, badIf (optTempOutside 0 20 offset) 3,
       badIf (wrongIfGiven choice) 4, badIf (minTimeBad choice minOn) 5, badIf (minTimeBad choice minOff) 6]
      (done s
        (s.plant.modCc fun c =>
          (({ c with
              setpoint := setpoint.getD c.setpoint
              threshold := threshold.getD c.threshold
              offset := offset.getD c.offset
              programmed := chosenTimes c.programmed choice minOn minOff }).withEffective).judgeSurge).csSettle [])) s

/-- In LIVE, a defined line or a cleaning job names the trunk, or a circuit is connected to it (R121). -/
def Plant.trunkHeld (p : Plant) (i : Nat) : Bool :=
  p.live
    && ((List.range 48).any (fun l => (p.line l).map (·.trunk) == some i) || p.cs.jobs.any (fun j => j.trunk = i)
        || (p.trunk i).circuit.isSome)

/-- A trunk takes its definition (R121). -/
def Plant.defineTrunk (p : Plant) (i : Nat) (use : Bool) (warm hot : Int) : Plant :=
  let was := (p.trunk i).inUse
  let q := p.modTrunk i fun t => { t with inUse := use, warm := warm, hot := hot }
  if use && !was then (q.modTrunk i fun t => { t with pump := true }).setTrunkState i .unknown .defined
  else if !use && was then
    (q.modTrunk i fun t =>
      { t with pump := false, pumpFault := false, pumpEnd := none, temperature := none, feedback := none }).setTrunkState i .unused
      .defined
  else q

/-- DEFINE_TRUNK (R121). An IN_USE refusal names field 1, the trunk (DESIGN CHOICE, log 92). -/
def execDefineTrunk (h : ReqHdr) (trunk : Nat) (use : EnumField Bool) (warm hot : Option Int) (s : State) :
    Host.Outcome State Fault Refusal :=
  request Kind.defineTrunk h (fun s =>
    let p := s.plant
    let w := warm.getD 40
    let k := hot.getD 70
    orFail
      [badIf (7 < trunk) 1, badIf (wrongEnum use) 2, badIf (optTempOutside 0 150 warm) 3, badIf (optTempOutside 10 250 hot) 4,
       badIf (k < w + 10) 4, inUseIf (!enumOr true use && p.trunkHeld trunk) 1]
      (done s (p.defineTrunk trunk (enumOr true use) w k) [])) s

/-- The cooling station's input image shows a stage's trip input TRIPPED, or does not show it (R117). -/
def Plant.tripShown (p : Plant) (i : Nat) : Bool :=
  match p.addressOf .cooling with
  | none => true
  | some a =>
    match (p.station a).inputs with
    | some (.cooling _ _ tripped _ _) => tripped.toList.getD i true
    | _ => true

/-- CLEAR_STAGE_TRIP (R117). -/
def execClearStageTrip (h : ReqHdr) (stage : Nat) (s : State) : Host.Outcome State Fault Refusal :=
  request Kind.clearStageTrip h (fun s =>
    let p := s.plant
    orFail [badIf (2 < stage) 1, stateIf (p.tripShown stage) 1]
      (done s (p.setStage stage { p.stage stage with tripped := false }) [])) s

/-- CLEAR_PUMP_FAULT (R125). -/
def execClearPumpFault (h : ReqHdr) (trunk : Nat) (s : State) : Host.Outcome State Fault Refusal :=
  request Kind.clearPumpFault h (fun s =>
    let p := s.plant
    orFail [badIf (7 < trunk) 1, stateIf (!(p.trunk trunk).inUse) 1]
      (done s (p.modTrunk trunk fun t => { t with pumpFault := false }) [])) s

/-- SURGE_HINT (R119). -/
def execSurgeHint (h : ReqHdr) (duration : Nat) (s : State) : Host.Outcome State Fault Refusal :=
  request Kind.surgeHint h (fun s =>
    let p := s.plant
    let set : Bool := duration != 0
    orFail [badIf (1800 < duration) 1]
      (done s (p.modCc fun c => ({ c with hintEnd := if set then some (p.now + duration * 1000) else none }).judgeSurge).csSettle
        (fOptWord (if set then some (p.clock + BitVec.ofNat 32 duration).toNat else none)))) s

end Sys2Proof.Machine
end

