-- ==== Sys2Proof/Machine/JournalRequests.lean ====
section
/-!
DEFINITION. The requests of chapter 8: reading and releasing the journal, the high-water mark, the period close.
-/

namespace Sys2Proof.Machine

/-- The place in the ring, and the record offset, of the first entry a READ_JOURNAL returns (R162, R163); the place of the next
seq is the fill. -/
def Plant.readFrom (p : Plant) (start : Option Word32) : Nat × Nat :=
  match start with
  | none => (p.fill - p.behind p.au.cursorSeq, p.au.cursorOffset)
  | some q => if p.behind q ≤ p.fill then (p.fill - p.behind q, 0) else (0, 0)

/-- The seq of a place of the ring. -/
def Plant.seqOfPlace (p : Plant) (k : Nat) : Word32 := p.au.nextSeq - BitVec.ofNat 32 (p.fill - k)

/-- A start seq that is ahead, other than the next seq itself (R162). -/
def Plant.startAhead (p : Plant) (start : Option Word32) : Bool :=
  match start with
  | none => false
  | some q => p.seqAhead q && q != p.au.nextSeq

/-- READ_JOURNAL (R162, R163). -/
def execReadJournal (h : ReqHdr) (start : Option Word32) (count : Nat) (s : State) : Host.Outcome State Fault Refusal :=
  request Kind.readJournal h (fun s =>
    let p := s.plant
    let (place, offset) := p.readFrom start
    let (entries, whole, left) := readEntries (p.au.journal.drop place) count entryRoom offset true
    let next := place + whole
    orFail [badIf (outside 1 32 count) 2, badIf (p.startAhead start) 1]
      (done s { p with au := { p.au with cursorSeq := p.seqOfPlace next, cursorOffset := left } }
        (fByte entries.length ++ entries.flatten ++ fWord p.oldestSeq.toNat ++ fWord p.au.nextSeq.toNat ++ fFlag (next < p.fill)))) s

/-- Held entries are freed, and the read cursor moves off them (R164). -/
def Plant.freeEntries (p : Plant) (freed : Nat) : Plant :=
  let q : Plant := { p with au := { p.au with journal := p.au.journal.drop freed } }
  if p.fill - p.behind p.au.cursorSeq < freed then { q with au := { q.au with cursorSeq := q.oldestSeq, cursorOffset := 0 } } else q

/-- The space event of a release (R160, R64); the subject of its notice is 0 (log 63). -/
def Plant.spaceEvent (p : Plant) : Plant :=
  if p.au.refused && Config.nonPourReserve < p.available then
    (({ p with au := { p.au with refused := false } }).raise .journalLevel 0 1 p.fill).refreshMapped
  else p

/-- A release that brings the fill below the mark arms the mark again (R161). -/
def Plant.rearm (p : Plant) (before : Nat) : Plant :=
  if p.au.mark ≤ before && p.fill < p.au.mark then { p with au := { p.au with armed := true } } else p

/-- The number of entries a RELEASE_JOURNAL frees (R164). -/
def Plant.freedBy (p : Plant) (q : Word32) : Nat := if p.seqHeld q then p.fill - p.behind q + 1 else 0

/-- Entries are released (R164). -/
def Plant.release (p : Plant) (q : Word32) : Plant :=
  if p.seqHeld q then (((p.freeEntries (p.freedBy q)).spaceEvent).rearm p.fill) else p

/-- RELEASE_JOURNAL (R164). -/
def execReleaseJournal (h : ReqHdr) (seq : Word32) (s : State) : Host.Outcome State Fault Refusal :=
  request Kind.releaseJournal h (fun s =>
    let p := s.plant
    let q := p.release seq
    orFail [badIf (p.seqAhead seq) 1] (done s q (fHalf (p.freedBy seq) ++ fWord q.oldestSeq.toNat ++ fHalf q.fill))) s

/-- SET_JOURNAL_MARK (R161). -/
def execSetJournalMark (h : ReqHdr) (mark : Nat) (s : State) : Host.Outcome State Fault Refusal :=
  request Kind.setJournalMark h (fun s =>
    let p := s.plant
    orFail [badIf (outside 256 2016 mark) 1] (done s { p with au := { p.au with mark := mark, armed := p.fill < mark } } [])) s

/-- Taps with a LEAK entry at a period close, ascending (R72). -/
def Plant.leakers (p : Plant) : List Nat := (List.range 96).filter fun i => 10 ≤ (p.tap i).creep

/-- The LEAK entries of a period close, and the creep of every tap cleared (R72). -/
def Plant.leaks (p : Plant) : Plant :=
  let q := p.leakers.foldl (fun r i => r.record (.leak i (p.tap i).creep)) p
  { q with pe := { q.pe with taps := q.pe.taps.map fun t => { t with creep := 0, residue := 0 } } }

/-- Defined product indices, ascending. -/
def Plant.definedProducts (p : Plant) : List Nat := (List.range 32).filter fun i => (p.product i).isSome

/-- The product record of an index in a PERIOD_CLOSE entry (R169). -/
def Plant.periodRecord (p : Plant) (i : Nat) : PeriodRecord :=
  let t := (p.totals i).1
  ⟨(p.code i).getD 0, t.ticketed, t.free, t.purge, t.calibration, t.pours, t.shorts⟩

/-- The period part of the totals is cleared and the next period opens (R169). -/
def Plant.openPeriod (p : Plant) : Plant :=
  { p with au := { p.au with
      totals := p.au.totals.map fun t => (Totals.zero, t.2)
      tapTotals := Vector.replicate 96 (0, 0)
      period := p.au.period + 1
      openedAt := p.clock } }

/-- The period closes (R169). -/
def Plant.closePeriod (p : Plant) : Plant :=
  let q := p.leaks
  (q.record (.periodClose q.au.period (q.definedProducts.map q.periodRecord))).openPeriod

/-- CLOSE_PERIOD (R169). -/
def execClosePeriod (h : ReqHdr) (s : State) : Host.Outcome State Fault Refusal :=
  request Kind.closePeriod h (fun s =>
    let p := s.plant
    let needed := p.leakers.length + 1
    orFail [stateIf p.definedProducts.isEmpty Config.noFieldDetail, fullIf (p.available < needed) needed]
      (done s p.closePeriod (fWord p.au.period.toNat ++ fWord p.leaks.au.nextSeq.toNat ++ fHalf p.leakers.length))) s

end Sys2Proof.Machine
end

