-- ==== Sys2Proof/Machine/Link.lean ====
section
/-!
DEFINITION. The Host Link's own commands (chapter 10): identification, link settings, tables, notices, and what the line brings
beside whole requests.
-/

namespace Sys2Proof.Machine

/-- HL's request is carried out on HL's own fields, with the data of its reply. -/
def hlDone (s : State) (l : Hl) (data : List Byte) : Answer := .accept { s with hl := l } data

/-! ### IDENTIFY and STATUS (R190) -/

/-- "OBJANA D96" in 12 characters padded with spaces (R190). -/
def partName : List Byte :=
  [0x4F#8, 0x42#8, 0x4A#8, 0x41#8, 0x4E#8, 0x41#8, 0x20#8, 0x44#8, 0x39#8, 0x36#8, 0x20#8, 0x20#8]

/-- The capacities of Table 10-3, in its order. -/
def capacities : List Nat := [96, 30, 48, 64, 32, 8, 3, 2, 6, 12, 8, 160, 8, 2048, 32, 64]

/-- IDENTIFY (R190; widths: log 14). -/
def execIdentify (h : ReqHdr) (s : State) : Host.Outcome State Fault Refusal :=
  request Kind.identify h (fun s => orFail [] (hlDone s s.hl (partName ++ fByte 1 ++ capacities.flatMap fHalf))) s

/-- The number of defined stations in a state (R190). -/
def Plant.stationsIn (p : Plant) (st : StationState) : Nat :=
  (addresses.filter fun a => (p.station a).kind.isSome && (p.station a).state == st).length

/-- The data of a STATUS reply (R190; widths: log 14). -/
def State.statusData (s : State) : List Byte :=
  let p := s.plant
  fByte p.msc.mode.num ++ fByte p.msc.stop.num ++ fWord p.clock.toNat ++ fHalf p.fill ++ fHalf p.au.reserved
    ++ fHalf s.hl.notices.length ++ fFlag s.hl.overflow ++ fHalf (p.stationsIn .absent) ++ fHalf (p.stationsIn .joining)
    ++ fHalf (p.stationsIn .active) ++ fHalf (p.stationsIn .lost) ++ fHalf (p.stationsIn .mismatch) ++ fByte p.cc.state.num

/-- STATUS (R190). -/
def execStatus (h : ReqHdr) (s : State) : Host.Outcome State Fault Refusal :=
  request Kind.status h (fun s => orFail [] (hlDone s s.hl s.statusData)) s

/-! ### SET_LINK (R189) -/

/-- The rate of a number of bit/s (Table 10-1). -/
def rateOf (n : Nat) : Option Rate :=
  if n = 57600 then some .r57600
  else if n = 115200 then some .r115200
  else if n = 230400 then some .r230400
  else if n = 460800 then some .r460800
  else none

/-- SET_LINK (R189): the rate named holds once the reply has been sent. -/
def execSetLink (h : ReqHdr) (rate : Nat) (s : State) : Host.Outcome State Fault Refusal :=
  request Kind.setLink h (fun s =>
    orFail [badIf (rateOf rate).isNone 1]
      (match rateOf rate with
       | some r => .newRate s (fWord rate) r
       | none => hlDone s s.hl [])) s

/-! ### READ_TABLE and READ_MORE (R191) -/

/-- Entries are returned from a cursor (R191). -/
def returnEntries (s : State) (c : TableCursor) : Answer :=
  let indices := (List.range (tableSize c.table)).drop c.next
  let (l, left, rest) := s.placeEntries c.table c.step indices c.remaining tableRoom
  let cursor : Option TableCursor :=
    match rest with
    | [] => none
    | i :: _ => if left = 0 then none else some { c with next := i, remaining := left }
  hlDone s { s.hl with cursor := cursor } (fByte (tableNum c.table) ++ fFlag cursor.isSome ++ fByte l.length ++ l.flatten)

/-- READ_TABLE (R191). -/
def execReadTable (h : ReqHdr) (table : EnumField TableName) (first count : Nat) (step : EnumField ReadStep) (s : State) :
    Host.Outcome State Fault Refusal :=
  request Kind.readTable h (fun s =>
    let t := enumOr .products table
    orFail [badIf (wrongEnum table) 1, badIf (tableSize t ≤ first) 2, badIf (outside 1 255 count) 3, badIf (wrongEnum step) 4]
      (returnEntries s ⟨t, first, count, enumOr .every step⟩)) s

/-- READ_MORE (R191). -/
def execReadMore (h : ReqHdr) (s : State) : Host.Outcome State Fault Refusal :=
  request Kind.readMore h (fun s =>
    orFail [stateIf s.hl.cursor.isNone Config.noFieldDetail]
      (match s.hl.cursor with
       | some c => returnEntries s c
       | none => hlDone s s.hl [])) s

/-! ### FETCH_NOTICES (R193) -/

/-- Notices leave the head of the queue, the overflow flag is cleared, and ATTN follows the queue (R192, R193). -/
def Hl.fetch (l : Hl) (count : Nat) : Hl :=
  { l with notices := l.notices.drop count, overflow := false, attn := !(l.notices.drop count).isEmpty }

/-- FETCH_NOTICES (R193). -/
def execFetchNotices (h : ReqHdr) (count : Nat) (s : State) : Host.Outcome State Fault Refusal :=
  request Kind.fetchNotices h (fun s =>
    let given := s.hl.notices.take count
    orFail [badIf (outside 1 8 count) 1]
      (hlDone s (s.hl.fetch count)
        (fFlag s.hl.overflow ++ fHalf (s.hl.notices.length - given.length) ++ fByte given.length ++ given.flatMap Notice.bytes))) s

/-! ### Frames that are no request, and the reply queue -/

/-- The kind byte names a request of Table 10-6. -/
def namesRequest (kind : Byte) : Bool := 1 ≤ kind.toNat && kind.toNat ≤ kindCount

/-- UNKNOWN_KIND (R188). A kind that names a request is not this arrival (log 3). -/
def execUnknownKind (h : ReqHdr) (kind : Byte) (s : State) : Host.Outcome State Fault Refusal :=
  if namesRequest kind then .next s
  else request ⟨kind.toNat, 0, true, true⟩ { h with length := none } (fun _ => .refuse .unknownKind 0 []) s

/-- OVERRUN (R187): a frame accepted while the reply queue is full. -/
def execOverrun (h : ReqHdr) (s : State) : Host.Outcome State Fault Refusal :=
  if !s.hl.rxdLow && s.hl.repliesFull then .next { s with hl := (s.hl.accepted h).overrun } else .next s

/-- The head of the reply queue has been sent, and the transmitter takes the reply behind it (R187). A SET_LINK reply brings its
rate, and a frame held in part is discarded; a rate then in force already changes nothing (R189; log 32). -/
def Hl.sent (l : Hl) : Hl :=
  match l.replies with
  | [] => l
  | r :: rest =>
    let m : Hl := ({ l with replies := rest }).transmit
    if r.made then
      match r.newRate with
      | some rate => if rate == l.rate then m else { m with rate := rate, receiver := .hunting }
      | none => m
    else l

/-- REPLY_SENT (R187, R189). -/
def execReplySent (s : State) : Host.Outcome State Fault Refusal := .next { s with hl := s.hl.sent }

/-! ### The receiver (R185) -/

/-- What a byte does to the frame being received. -/
inductive RxEvent where
  | none | lengthError | framingError | crcError
  deriving DecidableEq, Repr

/-- A byte is taken by the receiver's phase (R185). A byte that completes a good frame is the arrival of a request, which has a
command of its own (log 12). -/
def Receiver.take (r : Receiver) (b : RxByte) : Receiver × RxEvent :=
  match r with
  | .hunting => (if b.value == 0xA5#8 && !b.framing then .length else .hunting, .none)
  | .length =>
    if b.framing then (.hunting, .framingError)
    else if outside 2 250 b.value.toNat then (.hunting, .lengthError)
    else (.body b [], .none)
  | .body len got =>
    if b.framing then (.hunting, .framingError)
    else if got.length + 1 < len.value.toNat then (.body len (got ++ [b]), .none)
    else (.crc len (got ++ [b]) none, .none)
  | .crc len got none => if b.framing then (.hunting, .framingError) else (.crc len got (some b), .none)
  | .crc len got (some low) =>
    if b.framing then (.hunting, .framingError)
    else if crc16 (len.value :: got.map (·.value)) == b.value ++ low.value then (.hunting, .none)
    else (.hunting, .crcError)

/-- The link error count of what a byte did (R185). -/
def LinkCounts.add (c : LinkCounts) : RxEvent → LinkCounts
  | .none => c
  | .lengthError => { c with lengthErrors := satAdd Config.countMax c.lengthErrors 1 }
  | .framingError => { c with framingErrors := satAdd Config.countMax c.framingErrors 1 }
  | .crcError => { c with crcErrors := satAdd Config.countMax c.crcErrors 1 }

/-- HL takes a byte. -/
def Hl.takeByte (l : Hl) (b : RxByte) : Hl :=
  { l with receiver := (l.receiver.take b).1, counts := l.counts.add (l.receiver.take b).2 }

/-- FRAME_DISCARDED (R184, R185): the characters are sampled and their bytes taken one by one. With RXD held low no byte is taken
(R186). -/
def execFrameDiscarded (characters : List RxChar) (s : State) : Host.Outcome State Fault Refusal :=
  if s.hl.rxdLow then .next s else .next { s with hl := (characters.map RxChar.byte).foldl Hl.takeByte s.hl }

/-- A gap error (R185). -/
def Hl.gap (l : Hl) : Hl :=
  { l with receiver := .hunting, counts := { l.counts with gapErrors := satAdd Config.countMax l.counts.gapErrors 1 } }

/-- GAP_ERROR (R185): it arises while a frame is held in part (log 3). -/
def execGapError (s : State) : Host.Outcome State Fault Refusal :=
  if s.hl.receiver == .hunting then .next s else .next { s with hl := s.hl.gap }

/-! ### Link reset (R186) -/

/-- HL at a link reset: the reply being sent stops, and TXD is high (R186). -/
def Hl.linkReset (l : Hl) : Hl :=
  { l with
    receiver := .hunting
    rxdLow := true
    counts := { l.counts with breaks := satAdd Config.countMax l.counts.breaks 1 }
    replies := []
    transmitter := .idle
    cursor := none }

/-- AU at a link reset: the journal read cursor (R154, R186). -/
def Plant.resetCursor (p : Plant) : Plant := { p with au := { p.au with cursorSeq := p.oldestSeq, cursorOffset := 0 } }

/-- LINK_RESET (R186): one for each time RXD is low (log 3). -/
def execLinkReset (s : State) : Host.Outcome State Fault Refusal :=
  if s.hl.rxdLow then .next s else .next { s with hl := s.hl.linkReset, plant := s.plant.resetCursor }

/-- RXD_RETURNED_HIGH (R186): the receiver hunts from the first start bit on. -/
def execRxdReturnedHigh (s : State) : Host.Outcome State Fault Refusal := .next { s with hl := { s.hl with rxdLow := false } }

end Sys2Proof.Machine
end

