-- ==== Sys2Proof/Machine/Modes.lean ====
section
/-!
DEFINITION. Mode and Stop Control (chapter 9): the part clock, GO_LIVE, the cellar stop, device reset.
-/

namespace Sys2Proof.Machine

/-- Changes MSC's own fields. -/
def Plant.modMsc (p : Plant) (f : Msc → Msc) : Plant := { p with msc := f p.msc }

/-! ### The part clock (R173, R174) -/

/-- The part clock advances; the arrival stands at the end of its 1000 ms, to which the time base is brought (log 2). -/
def Msc.advance (m : Msc) : Msc :=
  { m with timeBase := max m.timeBase (m.clockSince + 1000), clockSince := m.clockSince + 1000, partClock := m.partClock + 1 }

/-- PART_CLOCK_ADVANCE (R173). -/
def execPartClockAdvance (s : State) : Host.Outcome State Fault Refusal := event (fun p => p.modMsc Msc.advance) s

/-- SET_CLOCK (R174). -/
def execSetClock (h : ReqHdr) (value : Word32) (s : State) : Host.Outcome State Fault Refusal :=
  request Kind.setClock h (fun s =>
    orFail [] (done s (s.plant.modMsc fun m => { m with partClock := value, clockSince := m.timeBase }) (fWord s.plant.clock.toNat))) s

/-! ### Going live (R175 to R177) -/

/-- A check of Table 9-3 that fails: the table and index named, and the check number. -/
structure LiveFault where
  table : TableName
  index : Nat
  check : Nat
  deriving DecidableEq, Repr

/-- Check 1: exactly one COOLING station (Table 9-3). -/
def Plant.stationFault (p : Plant) : Option LiveFault :=
  if (addresses.filter fun a => p.isType a .cooling).length = 1 then none else some ⟨.stations, 0, 1⟩

/-- A chain position is bound to the line's cellar station, LOADED, and holds the line's product (Table 9-3, check 5). -/
def Plant.chainFits (p : Plant) (x : Line) (i : Nat) : Bool :=
  (p.source i).bound.map (·.1) == some x.station && (p.source i).state == .loaded
    && (p.source i).keg.map (·.product) == some x.product

/-- Checks 2 to 5 of a line (Table 9-3). -/
def Plant.lineFault (p : Plant) (l : Nat) : Option LiveFault :=
  match p.line l with
  | none => none
  | some x =>
    if (p.product x.product).isNone then some ⟨.lines, l, 2⟩
    else if !(p.trunk x.trunk).inUse then some ⟨.lines, l, 3⟩
    else if !p.isType x.station .cellar then some ⟨.lines, l, 4⟩
    else if !x.chain.all (p.chainFits x) then some ⟨.lines, l, 5⟩
    else none

/-- Checks 6 and 7 of a tap (Table 9-3). -/
def Plant.tapFault (p : Plant) (i : Nat) : Option LiveFault :=
  let t := p.tap i
  if (match t.station with | some (a, k) => !p.isType a .tap || (p.station a).taps ≤ k | none => false) then some ⟨.taps, i, 6⟩
  else if (match t.line with | some l => (p.line l).isNone | none => false) then some ⟨.taps, i, 7⟩
  else none

/-- Check 8 of a programme (Table 9-3). -/
def Plant.programmeFault (p : Plant) (i : Nat) : Option LiveFault :=
  match p.programme i with
  | some g => if g.valid then none else some ⟨.programmes, i, 8⟩
  | none => none

/-- The first check of R175 that fails. -/
def Plant.liveFault (p : Plant) : Option LiveFault :=
  p.stationFault <|> (List.range 48).findSome? p.lineFault <|> (List.range 96).findSome? p.tapFault
    <|> (List.range 6).findSome? p.programmeFault

/-- The number of indices of a table that a condition holds for. -/
def countOf (n : Nat) (f : Nat → Bool) : Nat := ((List.range n).filter f).length

/-- The number of stations defined with a type. -/
def Plant.stationsOf (p : Plant) (t : StationType) : Nat := (addresses.filter fun a => p.isType a t).length

/-- The START entry (R183). -/
def Plant.startEntry (p : Plant) : EntryBody :=
  .start (countOf 32 fun i => (p.product i).isSome) (p.stationsOf .tap) (p.stationsOf .cellar) (p.stationsOf .cooling)
    (p.stationsOf .cleaning) (countOf 48 fun l => (p.line l).isSome) (countOf 96 fun i => (p.tap i).line.isSome)
    (countOf 8 fun i => (p.trunk i).inUse) (countOf 6 fun i => (p.programme i).isSome)
    (countOf 64 fun i => (p.source i).state == .loaded)

/-- The state a line enters at GO_LIVE (R177, Table 9-4). -/
def liveState (x : Line) : LineState :=
  if x.declaredOut then .outOfService
  else match x.content with
    | .beer => if x.chain.isEmpty then .dry else .serving
    | _ => .locked

/-- LM sets a line at GO_LIVE (R177). -/
def Plant.lineLive (p : Plant) (l : Nat) : Plant :=
  match p.line l with
  | none => p
  | some x =>
    let q := if x.content == .beer then p.headOnLine l else p
    (q.modLine l fun y => { y with unsupervised := !p.active y.station }).enterLine l (liveState x) x.content none

/-- GO_LIVE is taken (R176). -/
def Plant.goLive (p : Plant) : Plant :=
  let p1 := p.modMsc fun m => { m with mode := .live, liveAt := some m.partClock }
  let p2 : Plant := { p1 with au := { p1.au with period := 1, openedAt := p1.clock } }
  let p3 := p2.record p.startEntry
  let p4 := if p.stopped then p3.record (.stop true (p.msc.source.getD .pin)) else p3
  ((List.range 48).foldl Plant.lineLive p4).coolingLive

/-- The number of SERVING lines. -/
def Plant.servingLines (p : Plant) : Nat := countOf 48 p.serves

/-- GO_LIVE (R175, R176). A refusal's data names the table, the index and the check number, a byte each
(DESIGN CHOICE, log 14). -/
def execGoLive (h : ReqHdr) (s : State) : Host.Outcome State Fault Refusal :=
  request Kind.goLive h (fun s =>
    let p := s.plant
    orFail [inUseIf p.sbc.scan.isSome Config.noFieldDetail]
      (match p.liveFault with
       | some f => .refuse .refusedState Config.noFieldDetail (fByte (tableNum f.table) ++ fByte f.index ++ fByte f.check)
       | none => done s p.goLive (fHalf p.goLive.servingLines))) s

/-! ### The cellar stop (R178 to R182) -/

/-- The STOP_STATE notice (R178). -/
def Plant.raiseStop (p : Plant) : Plant :=
  p.raise .stopState 0 p.msc.stop.num (match p.msc.source with | some x => x.num | none => 0)

/-- A STOP entry, in LIVE only (R181, R182). -/
def Plant.recordStop (p : Plant) (onset : Bool) (source : StopSource) : Plant :=
  if p.live then p.record (.stop onset source) else p

/-- Stop onset (R181). PE, LM and CS are told in this order, so the CHANGEOVER entries of LM stand before the CLEAN_RUN entries of CS
(DESIGN CHOICE, log 93). One CLOSE_ALL is due, also when that of an onset before it still waits for the bus (R102; log 71). -/
def Plant.stopOnset (p : Plant) (st : StopState) (source : StopSource) : Plant :=
  let p1 := p.modMsc fun m => { m with stop := st, source := some source, stopActive := true, lastOnset := some m.partClock }
  let p2 := (p1.recordStop true source).raiseStop
  p2.peStop.lmStop.csStop.modSbc fun b => { b with closeAllDue := true }

/-- A stop ordered by request (R180): with the pin HIGH the state moves on to RELEASABLE. -/
def Plant.stopByRequest (p : Plant) : Plant :=
  if p.stopped then p else p.stopOnset (if p.msc.pinLow then .active else .releasable) .request

/-- STOP (R180). -/
def execStop (h : ReqHdr) (s : State) : Host.Outcome State Fault Refusal :=
  request Kind.stop h (fun s => orFail [] (done s s.plant.stopByRequest.csSettle [])) s

/-- The stop is released (R182, R63, R152). -/
def Plant.stopRelease (p : Plant) : Plant :=
  let p1 := p.modMsc fun m => { m with stop := .clear, source := none, stopActive := false }
  let p2 := ((p1.recordStop false .request).raiseStop).refreshMapped
  { p2 with cs := { p2.cs with hold := false } }

/-- RESUME (R182). -/
def execResume (h : ReqHdr) (s : State) : Host.Outcome State Fault Refusal :=
  request Kind.resume h (fun s =>
    orFail [stateIf (s.plant.msc.stop != .releasable) Config.noFieldDetail] (done s s.plant.stopRelease.csSettle [])) s

/-- The pin has fallen (R179). -/
def Plant.pinFall (p : Plant) : Plant :=
  let q := p.modMsc fun m => { m with pinLow := true }
  match p.msc.stop with
  | .clear => q.stopOnset .active .pin
  | .releasable => (q.modMsc fun m => { m with stop := .active, source := some .pin }).raiseStop
  | .active => q

/-- CELLAR_STOP_PIN_FALL (R179). A fall does not arise in ACTIVE (log 3). -/
def execCellarStopPinFall (s : State) : Host.Outcome State Fault Refusal := eventIf (s.plant.msc.stop != .active) (fun p => p.pinFall.csSettle) s

/-- The pin has risen (R179). -/
def Plant.pinRise (p : Plant) : Plant := (p.modMsc fun m => { m with pinLow := false, stop := .releasable }).raiseStop

/-- CELLAR_STOP_PIN_RISE (R179). A rise arises only in ACTIVE (log 3). -/
def execCellarStopPinRise (s : State) : Host.Outcome State Fault Refusal := eventIf (s.plant.msc.stop == .active) Plant.pinRise s

/-- The blocks after device reset, with the pin level as RESET_N is released (R178). -/
def Plant.afterReset (pinLow : Bool) : Plant :=
  if pinLow then (Plant.reset.modMsc fun m => { m with pinLow := true }).stopOnset .active .pin else Plant.reset

/-- DEVICE_RESET (R178): the state after device reset; commands that wait stay waiting (log 41). -/
def execDeviceReset (pinLow : Bool) (s : State) : Host.Outcome State Fault Refusal :=
  .next (deliver { State.reset with plant := Plant.afterReset pinLow, pending := s.pending })

end Sys2Proof.Machine
end

