-- ==== Sys2Proof/Machine/TapRequests.lean ====
section
/-!
DEFINITION. The requests of chapters 3 and 4: taps, settings, calibration.
-/

namespace Sys2Proof.Machine

/-- Another defined tap holds the station and tap index (R44). -/
def Plant.tapIndexHeld (p : Plant) (tap station index : Nat) : Bool :=
  (List.range 96).any fun i => i != tap && (p.tap i).station == some (station, index)

/-- The number of other taps that name a line (R44). -/
def Plant.otherTaps (p : Plant) (tap line : Nat) : Nat := ((p.tapsOfLine line).filter (· != tap)).length

/-- The tap entry DEFINE_TAP writes (R44, R67, R73, R77, R79). -/
def Plant.definedTap (p : Plant) (t : Tap) (station index : Nat) (line : Option Nat) (mode : TapMode) (factor limit : Nat) : Tap :=
  let moved : Bool := t.station != some (station, index)
  { t with
    station := some (station, index)
    line := line
    mode := mode
    factor := factor
    limit := limit
    staged := Staged.none
    handle := if moved then none else t.handle
    capImage := if moved then none else t.capImage
    valveImage := if moved then none else t.valveImage
    count := if moved then none else t.count
    calibration := none
    late := none
    off := line.isSome && p.live && (t.off || t.state == .unassigned) }

/-- PE reads a line's and its trunk's present state into its views (R41). -/
def Plant.readViews (p : Plant) (l : Nat) : Plant :=
  match p.line l with
  | none => p
  | some x => (p.setLineView l ⟨x.state, x.trunk, x.unsupervised⟩).setTrunkView x.trunk (p.trunk x.trunk).state

/-- DEFINE_TAP (R44). -/
def execDefineTap (h : ReqHdr) (tap station index : Nat) (line : Option Nat) (mode : EnumField TapMode) (factor limit : Option Nat)
    (s : State) : Host.Outcome State Fault Refusal :=
  request Kind.defineTap h (fun s =>
    let p := s.plant
    orFail
      [badIf (95 < tap) 1, badIf (outside 1 30 station) 2,
       badIf (3 < index || (p.live && p.isType station .tap && (p.station station).taps ≤ index)) 3, badIf (optOutside 0 47 line) 4,
       badIf (wrongIfGiven mode) 5, badIf (optOutside 2000 60000 factor) 6, badIf (optOutside 5 60 limit) 7,
       absentIf (p.live && !p.isType station .tap) 2,
       absentIf (p.live && (match line with | some l => (p.line l).isNone | none => false)) 4,
       inUseIf (p.tapIndexHeld tap station index) 3,
       fullIf (match line with | some l => 4 ≤ p.otherTaps tap l | none => false) 4,
       stateIf (p.live && (p.tap tap).state != .unassigned && (p.tap tap).state != .off) 1]
      (let q := match line with | some l => p.readViews l | none => p
       done s (q.changeTap tap fun t => p.definedTap t station index line (enumOr .ticket mode) (factor.getD 10000) (limit.getD 20)) [])) s

/-- Settings of SET_TAP laid over staged ones, field by field (R45). -/
def Staged.over (old : Staged) (mode : Option TapMode) (factor limit : Option Nat) : Staged :=
  ⟨mode.orElse fun _ => old.mode, factor.orElse fun _ => old.factor, limit.orElse fun _ => old.limit⟩

/-- SET_TAP (R45): taken at once in CONFIG, staged in LIVE. -/
def execSetTap (h : ReqHdr) (tap : Nat) (mode : EnumField TapMode) (factor limit : Option Nat) (s : State) :
    Host.Outcome State Fault Refusal :=
  request Kind.setTap h (fun s =>
    let p := s.plant
    orFail
      [absentIf (p.tap tap).station.isNone 1, badIf (wrongIfGiven mode) 2, badIf (optOutside 2000 60000 factor) 3,
       badIf (optOutside 5 60 limit) 4]
      (done s
        (p.changeTap tap fun t =>
          let u : Tap := { t with staged := t.staged.over (enumVal? mode) factor limit }
          if p.live then u else u.applyStaged) [])) s

/-- CLOSE_TAP (R46). -/
def execCloseTap (h : ReqHdr) (tap : Nat) (s : State) : Host.Outcome State Fault Refusal :=
  request Kind.closeTap h (fun s =>
    let p := s.plant
    let t := p.tap tap
    orFail [absentIf t.station.isNone 1, stateIf (t.state == .unassigned) 1, inUseIf (t.state == .cleaning) 1]
      (done s
        (if t.state == .off then p
         else (p.changeTap tap fun x => { x with off := true }).takeCause tap .cancelled) [])) s

/-- OPEN_TAP (R47). -/
def execOpenTap (h : ReqHdr) (tap : Nat) (s : State) : Host.Outcome State Fault Refusal :=
  request Kind.openTap h (fun s =>
    let p := s.plant
    orFail [absentIf (p.tap tap).station.isNone 1, stateIf ((p.tap tap).state != .off) 1]
      (done s (p.changeTap tap fun x => { x with off := false }) [])) s

/-- The sub-record is AWAITING. -/
def awaitingResult : Option Calibration → Bool
  | some (.awaiting _ _ _ _ _ _) => true
  | _ => false

/-- START_CALIBRATION (R76). -/
def execStartCalibration (h : ReqHdr) (tap nominal : Nat) (s : State) : Host.Outcome State Fault Refusal :=
  request Kind.startCalibration h (fun s =>
    let p := s.plant
    let t := p.tap tap
    let until_ := p.clock + BitVec.ofNat 32 Config.armSeconds
    orFail
      [absentIf t.station.isNone 1, badIf (outside 200 1000 nominal) 2, inUseIf (awaitingResult t.calibration) 1,
       stateIf (t.state != .idle || (t.line.bind p.lineView).map (·.state) != some .serving) 1]
      (done s
        (p.modTap tap fun x => { x with calibration := some (.armed nominal until_ (p.now + Config.armSeconds * 1000)) })
        (fWord until_.toNat))) s

/-- The factor a measured volume gives (R80). -/
def newFactor (pulses measured : Nat) : Nat := pulses * 1000 / measured

/-- The new factor is accepted (R80). -/
def factorAccepted (oldFactor factor : Nat) : Bool :=
  oldFactor * 85 ≤ factor * 100 && factor * 100 ≤ oldFactor * 115 && !outside 2000 60000 factor

/-- Pulses and old factor of an AWAITING sub-record. -/
def awaited : Option Calibration → Nat × Nat
  | some (.awaiting pulses _ oldFactor _ _ _) => (pulses, oldFactor)
  | _ => (0, 0)

/-- CALIBRATION_RESULT (R80, R81). -/
def execCalibrationResult (h : ReqHdr) (tap measured : Nat) (s : State) : Host.Outcome State Fault Refusal :=
  request Kind.calibrationResult h (fun s =>
    let p := s.plant
    let t := p.tap tap
    let factor := newFactor (awaited t.calibration).1 measured
    let accepted := factorAccepted (awaited t.calibration).2 factor
    orFail [absentIf t.station.isNone 1, badIf (outside 1 2000 measured) 2, stateIf (!awaitingResult t.calibration) 1]
      (done s
        ((p.record (.calResult tap measured factor accepted)).changeTap tap fun x =>
          { x with calibration := none, staged := if accepted then x.staged.over none (some factor) none else x.staged })
        (fFactor factor ++ fFlag accepted))) s

end Sys2Proof.Machine
end

