-- ==== Sys2Proof/Machine/TicketRequests.lean ====
section
/-!
DEFINITION. The requests of chapter 2: tickets and the top-up window.
-/

namespace Sys2Proof.Machine

/-- ISSUE_TICKET (R29). The details of the two FULL answers are free values (log 7); the ticket index goes in 1 byte of
the reply (DESIGN CHOICE, log 83). -/
def execIssueTicket (h : ReqHdr) (station product portion : Nat) (validity : Option Nat) (reference : Word32) (s : State) :
    Host.Outcome State Fault Refusal :=
  request Kind.issueTicket h (fun s =>
    let p := s.plant
    let seconds := validity.getD 600
    orFail
      [badIf (outside 1 30 station) 1, badIf (31 < product) 2, badIf (outside 100 1000 portion || portion % 10 != 0) 3,
       badIf (outside 10 3600 seconds) 4, absentIf (!p.isType station .tap) 1, absentIf (p.product product).isNone 2,
       fullIf p.freeTicket.isNone Config.poolDetail, fullIf (Config.stationQueueCapacity ≤ (p.queue station).length) Config.queueDetail]
      (let i := p.freeTicket.getD 0
       done s (p.issueTicket i station product portion seconds reference)
        (fByte i ++ fWord (p.clock + BitVec.ofNat 32 seconds).toNat))) s

/-- The reference of a ticket that is not FREE. -/
def Plant.ticketReference (p : Plant) (i : Nat) : Option Word32 := (p.ticket i).map (·.reference)

/-- The ticket is CLAIMED. -/
def Plant.ticketClaimed (p : Plant) (i : Nat) : Bool :=
  match p.ticket i with
  | some k => !k.waiting
  | none => false

/-- CANCEL_TICKET (R38). -/
def execCancelTicket (h : ReqHdr) (ticket : Nat) (reference : Word32) (s : State) : Host.Outcome State Fault Refusal :=
  request Kind.cancelTicket h (fun s =>
    let p := s.plant
    orFail
      [badIf (159 < ticket) 1, absentIf (p.ticket ticket).isNone 1, absentIf (p.ticketReference ticket != some reference) 2,
       inUseIf (p.ticketClaimed ticket) 1]
      (done s (p.closeTicket ticket .voidCancelled false) [])) s

/-- SET_TOPUP_WINDOW (R30). -/
def execSetTopupWindow (h : ReqHdr) (window : Nat) (s : State) : Host.Outcome State Fault Refusal :=
  request Kind.setTopupWindow h (fun s =>
    orFail [badIf (120 < window) 1] (done s { s.plant with tkm := { s.plant.tkm with window := window } } [])) s

end Sys2Proof.Machine
end

