-- ==== Sys2Proof/Machine/Timers.lean ====
section
/-!
DEFINITION. The ends of the timers. Each command names the thing whose timer it is; it arises while that timer runs, and stands at
the timer's end, to which the time base is brought if it is not yet there (log 2).
-/

namespace Sys2Proof.Machine

/-- The time base stands at a timer's end at the least (log 2). -/
def Plant.reach (p : Plant) (d : Nat) : Plant := p.modMsc fun m => { m with timeBase := max m.timeBase d }

/-- A timer's end: its effect at that time, or nothing when the timer does not run (log 3). -/
def expiry (deadline : Option Nat) (f : Plant → Plant) (s : State) : Host.Outcome State Fault Refusal :=
  match deadline with
  | none => .next s
  | some d => event (fun p => f (p.reach d)) s

/-! ### Changeovers (R18, R19) -/

/-- The changeover attempt a line has under way. -/
def Plant.attempt (p : Plant) (l : Nat) : Option Changeover :=
  if p.changing l then ((p.line l).bind (·.change)).filter fun c => c.primed.isNone else none

/-- The end of the prime timeout of a line's attempt (R19). -/
def Plant.changeoverEnd (p : Plant) (l : Nat) : Option Nat := (p.attempt l).map fun c => c.start + Config.primeTimeout

/-- CHANGEOVER_TIMEOUT (R19). -/
def execChangeoverTimeout (line : Nat) (s : State) : Host.Outcome State Fault Refusal :=
  expiry (s.plant.changeoverEnd line)
    (fun p => match p.attempt line with | some c => (p.failAttempt line c .failedTimeout none).csSettle | none => p) s

/-- The end of the re-trip window of a line (R18). -/
def Plant.retripEnd (p : Plant) (l : Nat) : Option Nat :=
  ((p.line l).bind (·.change)).bind fun c => c.primed.map (· + Config.retripWindow)

/-- RETRIP_WINDOW_CLOSE (R18). -/
def execRetripWindowClose (line : Nat) (s : State) : Host.Outcome State Fault Refusal :=
  expiry (s.plant.retripEnd line) (fun p => p.dropChange line) s

/-! ### Tickets (R36, R37) -/

/-- The end of a running timer. -/
def Timer.deadline : Timer → Option Nat
  | .running d => some d
  | _ => none

/-- The end of a ticket's validity timer. -/
def Plant.validityEnd (p : Plant) (i : Nat) : Option Nat := (p.ticket i).bind fun k => k.validity.deadline

/-- The end of a ticket's top-up timer. -/
def Plant.topupEnd (p : Plant) (i : Nat) : Option Nat := (p.ticket i).bind fun k => k.topup.deadline

/-- VALIDITY_TIMER_EXPIRY (R36). -/
def execValidityTimerExpiry (ticket : Nat) (s : State) : Host.Outcome State Fault Refusal :=
  expiry (s.plant.validityEnd ticket) (fun p => p.validityOut ticket) s

/-- TOPUP_TIMER_EXPIRY (R37). -/
def execTopupTimerExpiry (ticket : Nat) (s : State) : Host.Outcome State Fault Refusal :=
  expiry (s.plant.topupEnd ticket) (fun p => p.topupOut ticket) s

/-! ### Taps (R49, R56, R58, R73, R77, R79) -/

/-- NO_TICKET_DISPLAY_END (R49). -/
def execNoTicketDisplayEnd (tap : Nat) (s : State) : Host.Outcome State Fault Refusal :=
  expiry (s.plant.tap tap).noTicket (fun p => p.changeTap tap fun t => { t with noTicket := none }) s

/-- The end of a POURING pour's limit timer (R56). -/
def Plant.limitEnd (p : Plant) (tap : Nat) : Option Nat := (p.tap tap).pour.bind (·.limitEnd)

/-- The end of the ENDING wait of a pour (R58). -/
def Plant.endingEnd (p : Plant) (tap : Nat) : Option Nat := (p.tap tap).pour.bind (·.endingEnd)

/-- POUR_LIMIT_EXPIRY (R56). -/
def execPourLimitExpiry (tap : Nat) (s : State) : Host.Outcome State Fault Refusal :=
  expiry (s.plant.limitEnd tap) (fun p => p.takeCause tap .limit) s

/-- ENDING_TIMER_EXPIRY (R58). -/
def execEndingTimerExpiry (tap : Nat) (s : State) : Host.Outcome State Fault Refusal :=
  expiry (s.plant.endingEnd tap) (fun p => (p.completePour tap true).csSettle) s

/-- The end of a late-count record's life (R73). -/
def Plant.lateEnd (p : Plant) (tap : Nat) : Option Nat := (p.tap tap).late.map fun r => r.lossBase + Config.lateLife

/-- LATE_COUNT_EXPIRY (R73). -/
def execLateCountExpiry (tap : Nat) (s : State) : Host.Outcome State Fault Refusal :=
  expiry (s.plant.lateEnd tap) (fun p => p.modTap tap fun t => { t with late := none }) s

/-- The end of an ARMED sub-record's timer (R77). -/
def armEnd : Option Calibration → Option Nat
  | some (.armed _ _ d) => some d
  | _ => none

/-- The end of an AWAITING sub-record's timer (R79). -/
def resultEnd : Option Calibration → Option Nat
  | some (.awaiting _ _ _ _ _ d) => some d
  | _ => none

/-- The calibration sub-record becomes absent. -/
def Plant.dropCalibration (p : Plant) (tap : Nat) : Plant := p.modTap tap fun t => { t with calibration := none }

/-- ARM_TIMER_EXPIRY (R77). -/
def execArmTimerExpiry (tap : Nat) (s : State) : Host.Outcome State Fault Refusal :=
  expiry (armEnd (s.plant.tap tap).calibration) (fun p => p.dropCalibration tap) s

/-- RESULT_TIMER_EXPIRY (R79). -/
def execResultTimerExpiry (tap : Nat) (s : State) : Host.Outcome State Fault Refusal :=
  expiry (resultEnd (s.plant.tap tap).calibration) (fun p => p.dropCalibration tap) s

/-! ### Cooling (R110, R118, R119, R124, R126) -/

/-- DEGRADE_TIMER_EXPIRY (R110). -/
def execDegradeTimerExpiry (s : State) : Host.Outcome State Fault Refusal := expiry s.plant.cc.degradeEnd Plant.degradeOut s

/-- The time at which the head pair leaves the window (R118). -/
def Cc.ageEnd (c : Cc) : Option Nat := c.window.head?.map fun e => e.1 + Config.windowAge

/-- POUR_LOAD_AGE_OUT (R118). -/
def execPourLoadAgeOut (s : State) : Host.Outcome State Fault Refusal :=
  expiry s.plant.cc.ageEnd (fun p => (p.modCc fun c => c.ageOut p.now).csSettle) s

/-- SURGE_HINT_END (R119). -/
def execSurgeHintEnd (s : State) : Host.Outcome State Fault Refusal :=
  expiry s.plant.cc.hintEnd (fun p => (p.modCc fun c => ({ c with hintEnd := none }).judgeSurge).csSettle) s

/-- PUMP_TIMER_EXPIRY (R124). -/
def execPumpTimerExpiry (trunk : Nat) (s : State) : Host.Outcome State Fault Refusal :=
  expiry (s.plant.trunk trunk).pumpEnd (fun p => p.pumpOut trunk) s

/-- GRACE_TIMER_EXPIRY (R126). -/
def execGraceTimerExpiry (s : State) : Host.Outcome State Fault Refusal := expiry s.plant.cc.graceEnd Plant.graceOut s

/-! ### Cleaning jobs (R137 to R151) -/

/-- The end of a job's timer while it runs for a purpose. -/
def Plant.jobEnd (p : Plant) (job : Nat) (k : JobTimer) : Option Nat :=
  ((p.job job).bind (·.timer)).bind fun t => if t.1 == k then some t.2 else none

/-- What the end of a job's timer does to the job. -/
def Plant.withJob (p : Plant) (job : Nat) (f : Job → Plant → Plant) : Plant :=
  match p.job job with
  | none => p
  | some j => f j p

/-- DRAINING_LIMIT_EXPIRY (R137): pours that still run are preempted. -/
def execDrainingLimitExpiry (job : Nat) (s : State) : Host.Outcome State Fault Refusal :=
  expiry (s.plant.jobEnd job .draining)
    (fun p => p.withJob job fun j q => j.lines.foldl Plant.pePreempt (q.modJob job fun x => { x with timer := none })) s

/-- CAP_TIMER_EXPIRY (R138). -/
def execCapTimerExpiry (job : Nat) (s : State) : Host.Outcome State Fault Refusal :=
  expiry (s.plant.jobEnd job .cap) (fun p => (p.abortJob job .capTimeout).csSettle) s

/-- PUSH_LIMIT_EXPIRY (R141). -/
def execPushLimitExpiry (job : Nat) (s : State) : Host.Outcome State Fault Refusal :=
  expiry (s.plant.jobEnd job .push) (fun p => (p.abortJob job .pushTimeout).csSettle) s

/-- STEP_DURATION_END (R142). -/
def execStepDurationEnd (job : Nat) (s : State) : Host.Outcome State Fault Refusal :=
  expiry (s.plant.jobEnd job .duration) (fun p => (p.advance job).csSettle) s

/-- The end of a PULSE step's phase, at which the phase switches, unless the step's duration has run out by then (R142; log 53). -/
def Job.phaseEnd (j : Job) : Option Nat :=
  (j.phase.map (·.2)).filter fun e => match j.timer with | some (_, d) => e < d | none => true

/-- The end of the PULSE phase of a job (R142). -/
def Plant.phaseEnd (p : Plant) (job : Nat) : Option Nat := (p.job job).bind Job.phaseEnd

/-- A PULSE step switches its phase (R142). -/
def Plant.switchPhase (p : Plant) (job : Nat) : Plant :=
  p.withJob job fun j q =>
    match j.phase, q.currentStep j with
    | some (on, _), some st => (q.modJob job fun x => { x with phase := some (!on, q.now + Config.pulsePhase) }).stepOutputs j st (!on)
    | _, _ => q

/-- PULSE_PHASE_SWITCH (R142). -/
def execPulsePhaseSwitch (job : Nat) (s : State) : Host.Outcome State Fault Refusal :=
  expiry (s.plant.phaseEnd job) (fun p => p.switchPhase job) s

/-- What a failed PROVE of a step does (R143). -/
def onFailOf : Option Step → Option Nat
  | some (.prove _ _ _ n) => n
  | _ => none

/-- PROVE_LIMIT_EXPIRY (R143). -/
def execProveLimitExpiry (job : Nat) (s : State) : Host.Outcome State Fault Refusal :=
  expiry (s.plant.jobEnd job .prove) (fun p => (p.withJob job fun j q => q.proveFailed j (onFailOf (q.currentStep j))).csSettle) s

/-- PAUSE_TIMER_EXPIRY (R144). -/
def execPauseTimerExpiry (job : Nat) (s : State) : Host.Outcome State Fault Refusal :=
  expiry (s.plant.jobEnd job .pause) (fun p => (p.abortJob job .pauseTimeout).csSettle) s

/-- RETURN_TIMER_EXPIRY (R147): the line is locked with WATER and leaves the job. -/
def execReturnTimerExpiry (job : Nat) (s : State) : Host.Outcome State Fault Refusal :=
  expiry (s.plant.jobEnd job .beerReturn)
    (fun p => (p.withJob job fun j q => match j.returnLine with | some l => q.lineLocked j l (q.headOf l) | none => q).csSettle) s

/-- FLUSH_LIMIT_EXPIRY (R151). -/
def execFlushLimitExpiry (job : Nat) (s : State) : Host.Outcome State Fault Refusal :=
  expiry (s.plant.jobEnd job .flush) (fun p => (p.flushFail job .timeout).csSettle) s

end Sys2Proof.Machine
end

