-- ==== Sys2Proof/Machine/Dispatch.lean ====
section
/-!
DEFINITION. The meaning of every command: one arm for each row of opcode_table.json, in its order.
-/

namespace Sys2Proof.Machine

def exec (i : Instr) (s : State) : Host.Outcome State Fault Refusal :=
  match i with
  | .defineProduct h index code name tolerance threshold => Sys2Proof.Machine.execDefineProduct h index code name tolerance threshold s
  | .defineLine h line product trunk station index volume auto content oos => Sys2Proof.Machine.execDefineLine h line product trunk station index volume auto content oos s
  | .loadSource h position product nominal fillRef => Sys2Proof.Machine.execLoadSource h position product nominal fillRef s
  | .unloadSource h position => Sys2Proof.Machine.execUnloadSource h position s
  | .appendChain h line position => Sys2Proof.Machine.execAppendChain h line position s
  | .removeFromChain h line position => Sys2Proof.Machine.execRemoveFromChain h line position s
  | .forceChangeover h line => Sys2Proof.Machine.execForceChangeover h line s
  | .setLineService h line direction => Sys2Proof.Machine.execSetLineService h line direction s
  | .issueTicket h station product portion validity reference => Sys2Proof.Machine.execIssueTicket h station product portion validity reference s
  | .cancelTicket h ticket reference => Sys2Proof.Machine.execCancelTicket h ticket reference s
  | .setTopupWindow h window => Sys2Proof.Machine.execSetTopupWindow h window s
  | .defineTap h tap station index line mode factor limit => Sys2Proof.Machine.execDefineTap h tap station index line mode factor limit s
  | .setTap h tap mode factor limit => Sys2Proof.Machine.execSetTap h tap mode factor limit s
  | .closeTap h tap => Sys2Proof.Machine.execCloseTap h tap s
  | .openTap h tap => Sys2Proof.Machine.execOpenTap h tap s
  | .startCalibration h tap nominal => Sys2Proof.Machine.execStartCalibration h tap nominal s
  | .calibrationResult h tap measured => Sys2Proof.Machine.execCalibrationResult h tap measured s
  | .defineStation h address kind taps block => Sys2Proof.Machine.execDefineStation h address kind taps block s
  | .rescanStation h address => Sys2Proof.Machine.execRescanStation h address s
  | .traceStation h address on => Sys2Proof.Machine.execTraceStation h address on s
  | .scanBus h => Sys2Proof.Machine.execScanBus h s
  | .setCooling h setpoint threshold offset choice minOn minOff => Sys2Proof.Machine.execSetCooling h setpoint threshold offset choice minOn minOff s
  | .defineTrunk h trunk use warm hot => Sys2Proof.Machine.execDefineTrunk h trunk use warm hot s
  | .clearStageTrip h stage => Sys2Proof.Machine.execClearStageTrip h stage s
  | .clearPumpFault h trunk => Sys2Proof.Machine.execClearPumpFault h trunk s
  | .surgeHint h duration => Sys2Proof.Machine.execSurgeHint h duration s
  | .defineProgramme h programme steps => Sys2Proof.Machine.execDefineProgramme h programme steps s
  | .requestClean h trunk lines programme => Sys2Proof.Machine.execRequestClean h trunk lines programme s
  | .abortClean h job => Sys2Proof.Machine.execAbortClean h job s
  | .clearCircuitFault h circuit => Sys2Proof.Machine.execClearCircuitFault h circuit s
  | .readJournal h start count => Sys2Proof.Machine.execReadJournal h start count s
  | .releaseJournal h seq => Sys2Proof.Machine.execReleaseJournal h seq s
  | .setJournalMark h mark => Sys2Proof.Machine.execSetJournalMark h mark s
  | .closePeriod h => Sys2Proof.Machine.execClosePeriod h s
  | .goLive h => Sys2Proof.Machine.execGoLive h s
  | .setClock h value => Sys2Proof.Machine.execSetClock h value s
  | .stop h => Sys2Proof.Machine.execStop h s
  | .resume h => Sys2Proof.Machine.execResume h s
  | .identify h => Sys2Proof.Machine.execIdentify h s
  | .status h => Sys2Proof.Machine.execStatus h s
  | .setLink h rate => Sys2Proof.Machine.execSetLink h rate s
  | .readTable h table first count step => Sys2Proof.Machine.execReadTable h table first count step s
  | .readMore h => Sys2Proof.Machine.execReadMore h s
  | .fetchNotices h count => Sys2Proof.Machine.execFetchNotices h count s
  | .unknownKind h kind => Sys2Proof.Machine.execUnknownKind h kind s
  | .frameDiscarded characters => Sys2Proof.Machine.execFrameDiscarded characters s
  | .gapError => Sys2Proof.Machine.execGapError s
  | .overrun h => Sys2Proof.Machine.execOverrun h s
  | .replySent => Sys2Proof.Machine.execReplySent s
  | .linkReset => Sys2Proof.Machine.execLinkReset s
  | .deviceReset pinLow => Sys2Proof.Machine.execDeviceReset pinLow s
  | .cellarStopPinFall => Sys2Proof.Machine.execCellarStopPinFall s
  | .cellarStopPinRise => Sys2Proof.Machine.execCellarStopPinRise s
  | .partClockAdvance => Sys2Proof.Machine.execPartClockAdvance s
  | .stationVisit => Sys2Proof.Machine.execStationVisit s
  | .attentionCall contenders => Sys2Proof.Machine.execAttentionCall contenders s
  | .closeAll => Sys2Proof.Machine.execCloseAll s
  | .statusAccepted r => Sys2Proof.Machine.execStatusAccepted r s
  | .descriptorAccepted address d => Sys2Proof.Machine.execDescriptorAccepted address d s
  | .replyMiss came => Sys2Proof.Machine.execReplyMiss came s
  | .scanEnd => Sys2Proof.Machine.execScanEnd s
  | .changeoverTimeout line => Sys2Proof.Machine.execChangeoverTimeout line s
  | .retripWindowClose line => Sys2Proof.Machine.execRetripWindowClose line s
  | .validityTimerExpiry ticket => Sys2Proof.Machine.execValidityTimerExpiry ticket s
  | .topupTimerExpiry ticket => Sys2Proof.Machine.execTopupTimerExpiry ticket s
  | .noTicketDisplayEnd tap => Sys2Proof.Machine.execNoTicketDisplayEnd tap s
  | .pourLimitExpiry tap => Sys2Proof.Machine.execPourLimitExpiry tap s
  | .endingTimerExpiry tap => Sys2Proof.Machine.execEndingTimerExpiry tap s
  | .lateCountExpiry tap => Sys2Proof.Machine.execLateCountExpiry tap s
  | .armTimerExpiry tap => Sys2Proof.Machine.execArmTimerExpiry tap s
  | .resultTimerExpiry tap => Sys2Proof.Machine.execResultTimerExpiry tap s
  | .degradeTimerExpiry => Sys2Proof.Machine.execDegradeTimerExpiry s
  | .pourLoadAgeOut => Sys2Proof.Machine.execPourLoadAgeOut s
  | .surgeHintEnd => Sys2Proof.Machine.execSurgeHintEnd s
  | .pumpTimerExpiry trunk => Sys2Proof.Machine.execPumpTimerExpiry trunk s
  | .graceTimerExpiry => Sys2Proof.Machine.execGraceTimerExpiry s
  | .drainingLimitExpiry job => Sys2Proof.Machine.execDrainingLimitExpiry job s
  | .capTimerExpiry job => Sys2Proof.Machine.execCapTimerExpiry job s
  | .pushLimitExpiry job => Sys2Proof.Machine.execPushLimitExpiry job s
  | .stepDurationEnd job => Sys2Proof.Machine.execStepDurationEnd job s
  | .pulsePhaseSwitch job => Sys2Proof.Machine.execPulsePhaseSwitch job s
  | .proveLimitExpiry job => Sys2Proof.Machine.execProveLimitExpiry job s
  | .pauseTimerExpiry job => Sys2Proof.Machine.execPauseTimerExpiry job s
  | .returnTimerExpiry job => Sys2Proof.Machine.execReturnTimerExpiry job s
  | .flushLimitExpiry job => Sys2Proof.Machine.execFlushLimitExpiry job s
  | .rxdReturnedHigh => Sys2Proof.Machine.execRxdReturnedHigh s

end Sys2Proof.Machine
end

