-- ==== Sys2Proof/Machine/Tick.lean ====
section
/-!
DEFINITION. What a step does on an empty queue: the time base moves by one millisecond (R173), and the timer commands that
have come due join the queue (log 1).
-/

namespace Sys2Proof.Machine

/-- A command whose time has come. -/
def whenDue (now : Nat) (deadline : Option Nat) (c : Instr) : List Instr := if due now deadline then [c] else []

/-- The command at the end of a job's timer. -/
def timerCommand (k : JobTimer) (job : Nat) : Instr :=
  match k with
  | .draining => .drainingLimitExpiry job
  | .cap => .capTimerExpiry job
  | .push => .pushLimitExpiry job
  | .duration => .stepDurationEnd job
  | .prove => .proveLimitExpiry job
  | .pause => .pauseTimerExpiry job
  | .beerReturn => .returnTimerExpiry job
  | .flush => .flushLimitExpiry job

/-- The commands of a job's timers that have come due: a phase that ends before its step does switches before it (R142). -/
def jobCommands (now : Nat) (j : Job) : List Instr :=
  whenDue now j.phaseEnd (.pulsePhaseSwitch j.id)
    ++ (match j.timer with | some (k, d) => whenDue now (some d) (timerCommand k j.id) | none => [])

/-- The timer commands that have come due, in the order of opcode_table.json (log 1). -/
def Plant.dueCommands (p : Plant) : List Instr :=
  let now := p.now
  whenDue now (some (p.msc.clockSince + 1000)) .partClockAdvance
    ++ (List.range 48).flatMap (fun l => whenDue now (p.changeoverEnd l) (.changeoverTimeout l))
    ++ (List.range 48).flatMap (fun l => whenDue now (p.retripEnd l) (.retripWindowClose l))
    ++ (List.range 160).flatMap (fun i => whenDue now (p.validityEnd i) (.validityTimerExpiry i))
    ++ (List.range 160).flatMap (fun i => whenDue now (p.topupEnd i) (.topupTimerExpiry i))
    ++ (List.range 96).flatMap (fun i => whenDue now (p.tap i).noTicket (.noTicketDisplayEnd i))
    ++ (List.range 96).flatMap (fun i => whenDue now (p.limitEnd i) (.pourLimitExpiry i))
    ++ (List.range 96).flatMap (fun i => whenDue now (p.endingEnd i) (.endingTimerExpiry i))
    ++ (List.range 96).flatMap (fun i => whenDue now (p.lateEnd i) (.lateCountExpiry i))
    ++ (List.range 96).flatMap (fun i => whenDue now (armEnd (p.tap i).calibration) (.armTimerExpiry i))
    ++ (List.range 96).flatMap (fun i => whenDue now (resultEnd (p.tap i).calibration) (.resultTimerExpiry i))
    ++ whenDue now p.cc.degradeEnd .degradeTimerExpiry
    ++ whenDue now p.cc.ageEnd .pourLoadAgeOut
    ++ whenDue now p.cc.hintEnd .surgeHintEnd
    ++ (List.range 8).flatMap (fun i => whenDue now (p.trunk i).pumpEnd (.pumpTimerExpiry i))
    ++ whenDue now p.cc.graceEnd .graceTimerExpiry
    ++ p.cs.jobs.flatMap (jobCommands now)

/-- One millisecond passes. -/
def Plant.pass (p : Plant) : Plant := p.modMsc fun m => { m with timeBase := m.timeBase + 1 }

/-- The idle step (log 1). -/
def tick (s : State) : State := { s with plant := s.plant.pass, pending := s.pending ++ s.plant.pass.dueCommands }

end Sys2Proof.Machine
end

