-- ==== Sys2Proof/Machine/Step.lean ====
section
/-!
DEFINITION. One step of the block: the command at the front of the queue, or one millisecond of idling.
-/

namespace Sys2Proof.Machine

/-- The command at the front of the queue is taken, with the queue's rest behind it; on an empty queue the block idles for
one millisecond (log 1). -/
def step (s : State) : Host.Outcome State Fault Refusal :=
  match s.pending with
  | [] => .next (tick s)
  | c :: rest => exec c { s with pending := rest }

/-- The command that a table word spells, put at the front of the queue. No row of opcode_table.json gives bits, so no word
spells a command and the state stays as it is. -/
def State.withFetchWord (s : State) (nbits w : Nat) : State :=
  match decodeTableWord nbits w with
  | none => s
  | some c => { s with pending := c :: s.pending }

end Sys2Proof.Machine
end

