-- ==== Sys2Proof/Machine/RequestBytes.lean ====
section
/-!
DEFINITION. The bytes of a request: the fields of each kind in their order and widths (R194, Table 11-3), the command that the body of an
accepted frame reads as, and the bytes of a frame as the receiver takes them up to that command (R185).
-/

namespace Sys2Proof.Machine

/-- The request kind and header of a command that is one of the 44 requests of Table 10-6. -/
def requestOf : Instr → Option (RequestKind × ReqHdr)
  | .defineProduct h _ _ _ _ _ => some (Kind.defineProduct, h)
  | .defineLine h _ _ _ _ _ _ _ _ _ => some (Kind.defineLine, h)
  | .loadSource h _ _ _ _ => some (Kind.loadSource, h)
  | .unloadSource h _ => some (Kind.unloadSource, h)
  | .appendChain h _ _ => some (Kind.appendChain, h)
  | .removeFromChain h _ _ => some (Kind.removeFromChain, h)
  | .forceChangeover h _ => some (Kind.forceChangeover, h)
  | .setLineService h _ _ => some (Kind.setLineService, h)
  | .issueTicket h _ _ _ _ _ => some (Kind.issueTicket, h)
  | .cancelTicket h _ _ => some (Kind.cancelTicket, h)
  | .setTopupWindow h _ => some (Kind.setTopupWindow, h)
  | .defineTap h _ _ _ _ _ _ _ => some (Kind.defineTap, h)
  | .setTap h _ _ _ _ => some (Kind.setTap, h)
  | .closeTap h _ => some (Kind.closeTap, h)
  | .openTap h _ => some (Kind.openTap, h)
  | .startCalibration h _ _ => some (Kind.startCalibration, h)
  | .calibrationResult h _ _ => some (Kind.calibrationResult, h)
  | .defineStation h _ _ _ _ => some (Kind.defineStation, h)
  | .rescanStation h _ => some (Kind.rescanStation, h)
  | .traceStation h _ _ => some (Kind.traceStation, h)
  | .scanBus h => some (Kind.scanBus, h)
  | .setCooling h _ _ _ _ _ _ => some (Kind.setCooling, h)
  | .defineTrunk h _ _ _ _ => some (Kind.defineTrunk, h)
  | .clearStageTrip h _ => some (Kind.clearStageTrip, h)
  | .clearPumpFault h _ => some (Kind.clearPumpFault, h)
  | .surgeHint h _ => some (Kind.surgeHint, h)
  | .defineProgramme h _ _ => some (Kind.defineProgramme, h)
  | .requestClean h _ _ _ => some (Kind.requestClean, h)
  | .abortClean h _ => some (Kind.abortClean, h)
  | .clearCircuitFault h _ => some (Kind.clearCircuitFault, h)
  | .readJournal h _ _ => some (Kind.readJournal, h)
  | .releaseJournal h _ => some (Kind.releaseJournal, h)
  | .setJournalMark h _ => some (Kind.setJournalMark, h)
  | .closePeriod h => some (Kind.closePeriod, h)
  | .goLive h => some (Kind.goLive, h)
  | .setClock h _ => some (Kind.setClock, h)
  | .stop h => some (Kind.stop, h)
  | .resume h => some (Kind.resume, h)
  | .identify h => some (Kind.identify, h)
  | .status h => some (Kind.status, h)
  | .setLink h _ => some (Kind.setLink, h)
  | .readTable h _ _ _ _ => some (Kind.readTable, h)
  | .readMore h => some (Kind.readMore, h)
  | .fetchNotices h _ => some (Kind.fetchNotices, h)
  | .unknownKind _ _ => none
  | .frameDiscarded _ => none
  | .gapError => none
  | .overrun _ => none
  | .replySent => none
  | .linkReset => none
  | .deviceReset _ => none
  | .cellarStopPinFall => none
  | .cellarStopPinRise => none
  | .partClockAdvance => none
  | .stationVisit => none
  | .attentionCall _ => none
  | .closeAll => none
  | .statusAccepted _ => none
  | .descriptorAccepted _ _ => none
  | .replyMiss _ => none
  | .scanEnd => none
  | .changeoverTimeout _ => none
  | .retripWindowClose _ => none
  | .validityTimerExpiry _ => none
  | .topupTimerExpiry _ => none
  | .noTicketDisplayEnd _ => none
  | .pourLimitExpiry _ => none
  | .endingTimerExpiry _ => none
  | .lateCountExpiry _ => none
  | .armTimerExpiry _ => none
  | .resultTimerExpiry _ => none
  | .degradeTimerExpiry => none
  | .pourLoadAgeOut => none
  | .surgeHintEnd => none
  | .pumpTimerExpiry _ => none
  | .graceTimerExpiry => none
  | .drainingLimitExpiry _ => none
  | .capTimerExpiry _ => none
  | .pushLimitExpiry _ => none
  | .stepDurationEnd _ => none
  | .pulsePhaseSwitch _ => none
  | .proveLimitExpiry _ => none
  | .pauseTimerExpiry _ => none
  | .returnTimerExpiry _ => none
  | .flushLimitExpiry _ => none
  | .rxdReturnedHigh => none

/-! ### Fields of a body -/

/-- The number that bytes stand for, the low byte first (R194). -/
def leNat : List Byte → Nat
  | [] => 0
  | b :: l => b.toNat + 256 * leNat l

/-- Bytes cut into pieces of given widths, in order. -/
def slices : List Nat → List Byte → List (List Byte)
  | [], _ => []
  | w :: ws, l => l.take w :: slices ws (l.drop w)

/-- The fields of a body, in the order of its layout. -/
abbrev Fields := List (List Byte)

/-- The bytes of a field, numbered from 1 (R194). -/
def Fields.bytes (f : Fields) (k : Nat) : List Byte := f.getD (k - 1) []

/-- A field that holds a number. -/
def Fields.num (f : Fields) (k : Nat) : Nat := leNat (f.bytes k)

/-- A field that holds a part-clock time, a seq or a reference. -/
def Fields.word (f : Fields) (k : Nat) : Word32 := BitVec.ofNat 32 (f.num k)

/-- A field that holds a number or is absent, with all its bits one (Table 11-1). -/
def Fields.opt (f : Fields) (k : Nat) : Option Nat := if f.num k + 1 = 256 ^ (f.bytes k).length then none else some (f.num k)

/-- A signed temperature, absent as 0x7FFF (Table 11-1). -/
def Fields.temp (f : Fields) (k : Nat) : Option Int :=
  if f.num k = 0x7FFF then none else some (if f.num k < 0x8000 then f.num k else (f.num k : Int) - 0x10000)

/-- A name without the spaces that pad it (Table 11-1; log 84). -/
def Fields.name (f : Fields) (k : Nat) : List Byte := ((f.bytes k).reverse.dropWhile fun b => b == 0x20#8).reverse

/-- An enumerated value, numbered from 0 in the order of its values; 255 is absent (R194). -/
def enumField {α : Type} (values : List α) (n : Nat) : EnumField α :=
  match values[n]? with
  | some a => .val a
  | none => if n = 255 then .absent else .bad n

/-- A field that holds an enumerated value. -/
def Fields.enum {α : Type} (f : Fields) (values : List α) (k : Nat) : EnumField α := enumField values (f.num k)

/-! ### Values in the order of their numbers (R194) -/

/-- A flag: clear 0, set 1 (log 82). -/
def flagValues : List Bool := [false, true]
/-- "On or off" (Table 1-4, R100): on 0, off 1 (log 82). -/
def onOffValues : List Bool := [true, false]
/-- Table 1-4. -/
def contentValues : List Content := [.beer, .gas, .water, .cleaner, .unproven]
/-- R22: out, in. -/
def directionValues : List Direction := [.out, .into]
/-- Table 3-1. -/
def modeValues : List TapMode := [.ticket, .free]
/-- Table 5-3. -/
def typeValues : List StationType := [.tap, .cellar, .cooling, .cleaning]
/-- Table 6-1: DEFAULT, PROGRAMMED. -/
def minTimesValues : List MinTimes := [.standard, .programmed]
/-- Table 7-1. -/
def actionValues : List StepAction := [.push, .recirculate, .soak, .pulse, .prove]
/-- Table 7-1. -/
def mediumValues : List Medium := [.water, .caustic, .acid]
/-- Table 7-1: ABORT, REPEAT. -/
def onFailValues : List OnFail := [.abort, .again]
/-- Table 10-4. -/
def tableValues : List TableName :=
  [.products, .sources, .lines, .tickets, .taps, .stations, .stationInputs, .stationOutputs, .cooling, .stages, .trunks, .programmes,
   .jobs, .circuits, .journalState, .accounts, .productTotals, .tapTotals, .mode, .link]
/-- R191: EVERY, IN_USE. -/
def stepValues : List ReadStep := [.every, .inUse]

/-! ### Layouts -/

/-- The widths of a kind's fields, in the order in which its rule names them (R194, Table 11-1; widths that the table does not give: logs
14, 61, 83). Of a kind with a list, those up to and with the count of the list. -/
def fieldWidths : Nat → List Nat
  | 1 => [1, 2, 12, 4, 4]
  | 2 => [1, 1, 1, 1, 1, 4, 1, 1, 1]
  | 3 => [1, 1, 4, 4]
  | 5 | 6 | 8 | 20 | 27 | 28 => [1, 1]
  | 4 | 7 | 14 | 15 | 19 | 24 | 25 | 29 | 30 => [1]
  | 9 => [1, 1, 4, 2, 4]
  | 10 | 16 | 17 => [1, 4]
  | 11 | 26 | 33 | 44 => [2]
  | 12 => [1, 1, 1, 1, 1, 2, 2]
  | 13 => [1, 1, 2, 2]
  | 18 => [1, 1, 2, 1]
  | 22 => [2, 2, 2, 1, 2, 2]
  | 23 => [1, 1, 2, 2]
  | 31 => [4, 2]
  | 32 | 36 | 41 => [4]
  | 42 => [1, 1, 2, 1]
  | _ => []

/-- The widths of a step item of DEFINE_PROGRAMME, 13 bytes (R194). -/
def stepWidths : List Nat := [1, 1, 2, 1, 4, 2, 1, 1]

/-- The body has the layout of its kind (R188): the length of its fields, and with a list one that agrees with its count, 255 standing for
no list where the rule allows none (R130). A kind that names no request has no layout to misfit. -/
def bodyFits (body : List Byte) : Bool :=
  let f : Fields := slices [1, 1, 1, 1] body
  match f.num 1 with
  | 27 => decide (4 ≤ body.length) && body.length == 4 + (if f.num 4 = 255 then 0 else 13 * f.num 4)
  | 28 => decide (5 ≤ body.length) && body.length == 5 + f.num 4
  | n => !(decide (1 ≤ n) && decide (n ≤ kindCount)) || body.length == 2 + (fieldWidths n).sum

/-- A step item of DEFINE_PROGRAMME (R194). -/
def readStepField (item : List Byte) : StepField :=
  let f : Fields := slices stepWidths item
  ⟨f.enum actionValues 1, f.enum mediumValues 2, f.opt 3, f.opt 4, f.opt 5, f.opt 6, f.enum onFailValues 7, f.opt 8⟩

/-- The step list of DEFINE_PROGRAMME, behind its count; none with the count 255 (R130). No frame holds more than 18 items. -/
def readSteps (count : Nat) (items : List Byte) : Option (List StepField) :=
  if count = 255 then none else some ((slices (List.replicate (min 18 count) 13) items).map readStepField)

/-- The command that the body of an accepted frame reads as, from the number of noisy bytes of the frame (R185, R187, R194). Of a body
that misfits its kind only the header and the length are ever used (R188). -/
def readRequest (noisy : Nat) (body : List Byte) : Instr :=
  let h : ReqHdr := ⟨body.getD 1 0, noisy, if bodyFits body then none else some body.length⟩
  let kind := body.headD 0
  let f : Fields := slices (fieldWidths kind.toNat) (body.drop 2)
  match kind.toNat with
  | 1 => .defineProduct h (f.num 1) (f.num 2) (f.name 3) (f.opt 4) (f.num 5)
  | 2 => .defineLine h (f.num 1) (f.num 2) (f.num 3) (f.num 4) (f.num 5) (f.num 6) (f.enum onOffValues 7) (f.enum contentValues 8)
      (f.enum flagValues 9)
  | 3 => .loadSource h (f.num 1) (f.num 2) (f.num 3) (f.word 4)
  | 4 => .unloadSource h (f.num 1)
  | 5 => .appendChain h (f.num 1) (f.num 2)
  | 6 => .removeFromChain h (f.num 1) (f.num 2)
  | 7 => .forceChangeover h (f.num 1)
  | 8 => .setLineService h (f.num 1) (f.enum directionValues 2)
  | 9 => .issueTicket h (f.num 1) (f.num 2) (f.num 3) (f.opt 4) (f.word 5)
  | 10 => .cancelTicket h (f.num 1) (f.word 2)
  | 11 => .setTopupWindow h (f.num 1)
  | 12 => .defineTap h (f.num 1) (f.num 2) (f.num 3) (f.opt 4) (f.enum modeValues 5) (f.opt 6) (f.opt 7)
  | 13 => .setTap h (f.num 1) (f.enum modeValues 2) (f.opt 3) (f.opt 4)
  | 14 => .closeTap h (f.num 1)
  | 15 => .openTap h (f.num 1)
  | 16 => .startCalibration h (f.num 1) (f.num 2)
  | 17 => .calibrationResult h (f.num 1) (f.num 2)
  | 18 => .defineStation h (f.num 1) (f.enum typeValues 2) (f.num 3) (f.num 4)
  | 19 => .rescanStation h (f.num 1)
  | 20 => .traceStation h (f.num 1) (f.enum onOffValues 2)
  | 21 => .scanBus h
  | 22 => .setCooling h (f.temp 1) (f.opt 2) (f.temp 3) (f.enum minTimesValues 4) (f.opt 5) (f.opt 6)
  | 23 => .defineTrunk h (f.num 1) (f.enum flagValues 2) (f.temp 3) (f.temp 4)
  | 24 => .clearStageTrip h (f.num 1)
  | 25 => .clearPumpFault h (f.num 1)
  | 26 => .surgeHint h (f.num 1)
  | 27 => .defineProgramme h (f.num 1) (readSteps (f.num 2) (body.drop 4))
  | 28 => .requestClean h (f.num 1) (((body.drop 4).take (min 245 (f.num 2))).map (·.toNat)) (body.getD (4 + f.num 2) 0).toNat
  | 29 => .abortClean h (f.num 1)
  | 30 => .clearCircuitFault h (f.num 1)
  | 31 => .readJournal h (if f.word 1 = 0xFFFFFFFF#32 then none else some (f.word 1)) (f.num 2)
  | 32 => .releaseJournal h (f.word 1)
  | 33 => .setJournalMark h (f.num 1)
  | 34 => .closePeriod h
  | 35 => .goLive h
  | 36 => .setClock h (f.word 1)
  | 37 => .stop h
  | 38 => .resume h
  | 39 => .identify h
  | 40 => .status h
  | 41 => .setLink h (f.num 1)
  | 42 => .readTable h (f.enum tableValues 1) (f.num 2) (f.num 3) (f.enum stepValues 4)
  | 43 => .readMore h
  | 44 => .fetchNotices h (f.num 1)
  | _ => .unknownKind h kind

/-- The request that arrives with a byte: it completes a frame whose CRC agrees (R185, R187). The noisy bytes of the frame are those
from its length byte on (R184). -/
def Receiver.request (r : Receiver) (b : RxByte) : Option Instr :=
  match r with
  | .crc len got (some low) =>
    if !b.framing && crc16 (len.value :: got.map (·.value)) == b.value ++ low.value then
      some (readRequest ((len :: got ++ [low, b]).countP (·.noisy)) (got.map (·.value)))
    else none
  | _ => none

end Sys2Proof.Machine
end

