-- ==== Sys2Proof/WellFormed.lean ====
section
/-!
DEFINITION. Well-formed commands: every operand fits the width its quantity has on the link (Table 11-1), an absent value is
not given twice (as absent and as the number that stands for it), and lists are no longer than the frame or the image allows.
A command that is not well formed cannot arrive; the meanings are total on it all the same.
-/

namespace Sys2Proof.WellFormed

/-- A number that fits one byte: indices and enumerated values. -/
def byte (n : Nat) : Bool := n < 2 ^ 8

/-- A number that fits two bytes: durations, factors, codes, counts. -/
def half (n : Nat) : Bool := n < 2 ^ 16

/-- A number that fits four bytes: volumes, conductivities, rates. -/
def word (n : Nat) : Bool := n < 2 ^ 32

/-- A temperature of two bytes that is not the absent value 0x7FFF. -/
def temp (t : Int) : Bool := decide (-32768 ≤ t) && decide (t < 32767)

/-- A field that may be absent: a present value is not the number that stands for absence. -/
def optional (width : Nat) : Option Nat → Bool
  | none => true
  | some n => n + 1 < 2 ^ width

/-- A temperature field that may be absent. -/
def optTemp : Option Int → Bool
  | none => true
  | some t => temp t

/-- An enumerated field of `values` values: a number outside them is neither one of them nor 255. -/
def enum {α : Type} (values : Nat) : EnumField α → Bool
  | .val _ => true
  | .absent => true
  | .bad n => decide (values ≤ n) && decide (n < 255)

/-- A request header, over the body length that the layout of its kind gives: a body length received is one of R185, and the noisy
bytes are among the length byte, the body and the two bytes of the CRC. The mark of the sync byte, which arrives while the receiver
hunts, is counted nowhere (R184). -/
def hdr (layout : Nat) (h : ReqHdr) : Bool :=
  (match h.length with | none => true | some n => decide (2 ≤ n) && decide (n ≤ 250)) && decide (h.noisy ≤ h.length.getD layout + 3)

/-- A step item of DEFINE_PROGRAMME. -/
def stepField (s : StepField) : Bool :=
  enum 5 s.action && enum 3 s.medium && optional 16 s.duration && optional 8 s.factor && optional 32 s.threshold
    && optional 16 s.limit && enum 2 s.onFail && optional 8 s.count

/-- An input image: 1 to 4 taps, temperatures of two bytes (Table 11-7). -/
def image : InputImage → Bool
  | .tap taps => decide (1 ≤ taps.length) && decide (taps.length ≤ 4)
  | .cellar _ _ => true
  | .cooling bath _ _ returns _ => decide (-32768 ≤ bath) && decide (bath ≤ 32767) && returns.toList.all fun t => decide (-32768 ≤ t) && decide (t ≤ 32767)
  | .cleaning _ _ => true

/-- A descriptor: each count is one byte (Table 11-5). -/
def descriptor (d : Descriptor) : Bool :=
  enum 4 d.kind && byte d.taps && byte d.couplers && byte d.outlets && byte d.stages && byte d.trunks && byte d.circuits

/-- Well-formed commands. The number before a header is the body length of the kind (R194; Kind in Machine/Operands.lean), and the
longest body where the frame names no kind of Table 10-6 or is an overrun. The spaces that pad a name are no part of it (Table 11-1;
log 84). READ_JOURNAL's start is one field, in which all bits one is CONTINUE (R162; log 70). A character of the station bus begins
with its start bit, which is 0 (R82). -/
def instr : Instr → Bool
  | .defineProduct h i c name tol thr => hdr 25 h && byte i && half c && decide (name.length ≤ 12) && decide (name.getLast? ≠ some 0x20#8) && optional 32 tol && word thr
  | .defineLine h l p t s i v a c o => hdr 14 h && byte l && byte p && byte t && byte s && byte i && word v && enum 2 a && enum 5 c && enum 2 o
  | .loadSource h p i n _ => hdr 12 h && byte p && byte i && word n
  | .unloadSource h p => hdr 3 h && byte p
  | .appendChain h l p => hdr 4 h && byte l && byte p
  | .removeFromChain h l p => hdr 4 h && byte l && byte p
  | .forceChangeover h l => hdr 3 h && byte l
  | .setLineService h l d => hdr 4 h && byte l && enum 2 d
  | .issueTicket h s p v t _ => hdr 14 h && byte s && byte p && word v && optional 16 t
  | .cancelTicket h t _ => hdr 7 h && byte t
  | .setTopupWindow h w => hdr 4 h && half w
  | .defineTap h t s i l m f p => hdr 11 h && byte t && byte s && byte i && optional 8 l && enum 2 m && optional 16 f && optional 16 p
  | .setTap h t m f p => hdr 8 h && byte t && enum 2 m && optional 16 f && optional 16 p
  | .closeTap h t => hdr 3 h && byte t
  | .openTap h t => hdr 3 h && byte t
  | .startCalibration h t n => hdr 7 h && byte t && word n
  | .calibrationResult h t m => hdr 7 h && byte t && word m
  | .defineStation h a k t b => hdr 7 h && byte a && enum 4 k && half t && byte b
  | .rescanStation h a => hdr 3 h && byte a
  | .traceStation h a o => hdr 4 h && byte a && enum 2 o
  | .scanBus h => hdr 2 h
  | .setCooling h s t o c a b => hdr 13 h && optTemp s && optional 16 t && optTemp o && enum 2 c && optional 16 a && optional 16 b
  | .defineTrunk h t u w k => hdr 8 h && byte t && enum 2 u && optTemp w && optTemp k
  | .clearStageTrip h s => hdr 3 h && byte s
  | .clearPumpFault h t => hdr 3 h && byte t
  | .surgeHint h d => hdr 4 h && half d
  | .defineProgramme h p steps => hdr (4 + 13 * (steps.getD []).length) h && byte p && (match steps with | none => true | some l => decide (l.length ≤ 18) && l.all stepField)
  | .requestClean h t ls p => hdr (5 + ls.length) h && byte t && decide (ls.length ≤ 245) && ls.all byte && byte p
  | .abortClean h j => hdr 3 h && byte j
  | .clearCircuitFault h c => hdr 3 h && byte c
  | .readJournal h s c => hdr 8 h && half c && decide (s ≠ some 0xFFFFFFFF#32)
  | .releaseJournal h _ => hdr 6 h
  | .setJournalMark h m => hdr 4 h && half m
  | .closePeriod h => hdr 2 h
  | .goLive h => hdr 2 h
  | .setClock h _ => hdr 6 h
  | .stop h => hdr 2 h
  | .resume h => hdr 2 h
  | .identify h => hdr 2 h
  | .status h => hdr 2 h
  | .setLink h r => hdr 6 h && word r
  | .readTable h t f c s => hdr 7 h && enum 20 t && byte f && half c && enum 2 s
  | .readMore h => hdr 2 h
  | .fetchNotices h c => hdr 4 h && half c
  | .unknownKind h k => hdr 250 h && (decide (k.toNat = 0) || decide (44 < k.toNat))
  | .frameDiscarded _ => true
  | .gapError => true
  | .overrun h => hdr 250 h
  | .replySent => true
  | .linkReset => true
  | .deviceReset _ => true
  | .cellarStopPinFall => true
  | .cellarStopPinRise => true
  | .partClockAdvance => true
  | .stationVisit => true
  | .attentionCall c => decide (c.length ≤ 30)
  | .closeAll => true
  | .statusAccepted r => byte r.address && image r.image
  | .descriptorAccepted a d => byte a && descriptor d
  | .replyMiss came => came.characters.all fun w => !w[0]
  | .scanEnd => true
  | .changeoverTimeout l => decide (l < 48)
  | .retripWindowClose l => decide (l < 48)
  | .validityTimerExpiry t => decide (t < 160)
  | .topupTimerExpiry t => decide (t < 160)
  | .noTicketDisplayEnd t => decide (t < 96)
  | .pourLimitExpiry t => decide (t < 96)
  | .endingTimerExpiry t => decide (t < 96)
  | .lateCountExpiry t => decide (t < 96)
  | .armTimerExpiry t => decide (t < 96)
  | .resultTimerExpiry t => decide (t < 96)
  | .degradeTimerExpiry => true
  | .pourLoadAgeOut => true
  | .surgeHintEnd => true
  | .pumpTimerExpiry t => decide (t < 8)
  | .graceTimerExpiry => true
  | .drainingLimitExpiry j => decide (1 ≤ j) && decide (j ≤ 254)
  | .capTimerExpiry j => decide (1 ≤ j) && decide (j ≤ 254)
  | .pushLimitExpiry j => decide (1 ≤ j) && decide (j ≤ 254)
  | .stepDurationEnd j => decide (1 ≤ j) && decide (j ≤ 254)
  | .pulsePhaseSwitch j => decide (1 ≤ j) && decide (j ≤ 254)
  | .proveLimitExpiry j => decide (1 ≤ j) && decide (j ≤ 254)
  | .pauseTimerExpiry j => decide (1 ≤ j) && decide (j ≤ 254)
  | .returnTimerExpiry j => decide (1 ≤ j) && decide (j ≤ 254)
  | .flushLimitExpiry j => decide (1 ≤ j) && decide (j ≤ 254)
  | .rxdReturnedHigh => true

end Sys2Proof.WellFormed
end

