-- ==== Sys2Proof/Safety.lean ====
section
/-!
DEFINITION. What the statements are written with: which commands are requests, when a request is taken, the state after an
answer, and the invariants.
-/

namespace Sys2Proof.Machine

/-! ### The bytes of a request (R194, Table 11-3) -/

/-- An enumerated field: its value's number, 255 for absent, or the number it holds. -/
def enumByte {α : Type} (num : α → Nat) (e : EnumField α) : List Byte :=
  leBytes 1 (match e with | .val a => num a | .absent => 255 | .bad n => n)

/-- A temperature in two's complement, 0x7FFF for absent. -/
def tempBytes (t : Option Int) : List Byte := leBytes 2 (match t with | none => 0x7FFF | some v => (v % 65536).toNat)

/-- A step item of DEFINE_PROGRAMME: its 13 bytes, field by field. -/
def stepBytes (x : StepField) : List Byte :=
  enumByte (fun a => match a with | .push => 0 | .recirculate => 1 | .soak => 2 | .pulse => 3 | .prove => 4) x.action
    ++ enumByte (fun m => match m with | .water => 0 | .caustic => 1 | .acid => 2) x.medium
    ++ leBytes 2 (x.duration.getD 65535) ++ leBytes 1 (x.factor.getD 255) ++ leBytes 4 (x.threshold.getD 4294967295)
    ++ leBytes 2 (x.limit.getD 65535) ++ enumByte (fun o => match o with | .abort => 0 | .again => 1) x.onFail
    ++ leBytes 1 (x.count.getD 255)

/-- The fields of a request behind its header, in the order in which its rule names them, each at the width of its quantity
(R194; widths that Table 11-1 does not give: logs 14, 61 and 83; the numbers of flags and of on and off: log 82). -/
def requestFields : Instr → List Byte
  | .defineProduct _ i c name tol thr =>
    leBytes 1 i ++ leBytes 2 c ++ (name ++ List.replicate (12 - name.length) 0x20#8) ++ leBytes 4 (tol.getD 4294967295) ++ leBytes 4 thr
  | .defineLine _ l p t s i v auto content oos =>
    leBytes 1 l ++ leBytes 1 p ++ leBytes 1 t ++ leBytes 1 s ++ leBytes 1 i ++ leBytes 4 v
      ++ enumByte (fun on => if on then 0 else 1) auto
      ++ enumByte (fun c => match c with | .beer => 0 | .gas => 1 | .water => 2 | .cleaner => 3 | .unproven => 4) content
      ++ enumByte (fun set => if set then 1 else 0) oos
  | .loadSource _ p i n ref => leBytes 1 p ++ leBytes 1 i ++ leBytes 4 n ++ leBytes 4 ref.toNat
  | .appendChain _ l p | .removeFromChain _ l p => leBytes 1 l ++ leBytes 1 p
  | .setLineService _ l d => leBytes 1 l ++ enumByte (fun d => match d with | .out => 0 | .into => 1) d
  | .issueTicket _ s p v t ref =>
    leBytes 1 s ++ leBytes 1 p ++ leBytes 4 v ++ leBytes 2 (t.getD 65535) ++ leBytes 4 ref.toNat
  | .cancelTicket _ t ref => leBytes 1 t ++ leBytes 4 ref.toNat
  | .defineTap _ t s i l m f v =>
    leBytes 1 t ++ leBytes 1 s ++ leBytes 1 i ++ leBytes 1 (l.getD 255) ++ enumByte (fun m => match m with | .ticket => 0 | .free => 1) m
      ++ leBytes 2 (f.getD 65535) ++ leBytes 2 (v.getD 65535)
  | .setTap _ t m f v =>
    leBytes 1 t ++ enumByte (fun m => match m with | .ticket => 0 | .free => 1) m ++ leBytes 2 (f.getD 65535) ++ leBytes 2 (v.getD 65535)
  | .startCalibration _ t v | .calibrationResult _ t v => leBytes 1 t ++ leBytes 4 v
  | .defineStation _ a k t b =>
    leBytes 1 a ++ enumByte (fun k => match k with | .tap => 0 | .cellar => 1 | .cooling => 2 | .cleaning => 3) k ++ leBytes 2 t
      ++ leBytes 1 b
  | .traceStation _ a o => leBytes 1 a ++ enumByte (fun on => if on then 0 else 1) o
  | .setCooling _ s t o c a b =>
    tempBytes s ++ leBytes 2 (t.getD 65535) ++ tempBytes o ++ enumByte (fun c => match c with | .standard => 0 | .programmed => 1) c
      ++ leBytes 2 (a.getD 65535) ++ leBytes 2 (b.getD 65535)
  | .defineTrunk _ t use warm hot => leBytes 1 t ++ enumByte (fun set => if set then 1 else 0) use ++ tempBytes warm ++ tempBytes hot
  | .defineProgramme _ p steps =>
    leBytes 1 p ++ (match steps with | none => [255#8] | some l => leBytes 1 l.length ++ l.flatMap stepBytes)
  | .requestClean _ t lines p => leBytes 1 t ++ leBytes 1 lines.length ++ lines.flatMap (leBytes 1) ++ leBytes 1 p
  | .readJournal _ start n => leBytes 4 ((start.getD 0xFFFFFFFF#32).toNat) ++ leBytes 2 n
  | .readTable _ t first n step =>
    enumByte tableNum t ++ leBytes 1 first ++ leBytes 2 n ++ enumByte (fun x => match x with | .every => 0 | .inUse => 1) step
  | .unloadSource _ n | .forceChangeover _ n | .closeTap _ n | .openTap _ n | .rescanStation _ n | .clearStageTrip _ n
  | .clearPumpFault _ n | .abortClean _ n | .clearCircuitFault _ n => leBytes 1 n
  | .setTopupWindow _ n | .surgeHint _ n | .setJournalMark _ n | .fetchNotices _ n => leBytes 2 n
  | .releaseJournal _ w | .setClock _ w => leBytes 4 w.toNat
  | .setLink _ n => leBytes 4 n
  | _ => []

/-- The body of a request: its kind, its tag and its fields (Table 11-3). -/
def requestBody (c : Instr) : List Byte :=
  match requestOf c with
  | none => []
  | some (k, h) => BitVec.ofNat 8 k.num :: h.tag :: requestFields c

/-- The kind is taken in the present mode (Table 9-1). -/
def RequestKind.takenIn (k : RequestKind) (live : Bool) : Bool := if live then k.inLive else k.inConfig

/-- The link can take a request: RXD is not held low by a break, and the reply queue holds fewer than 2 replies (R186, R187). -/
abbrev LinkReady (s : State) : Prop := s.hl.rxdLow = false ∧ s.hl.replies.length < Config.replyCapacity

/-- No notice of an earlier command waits to be taken by HL: so it is between two commands (`HlInv`). -/
abbrev Quiet (s : State) : Prop := s.plant.raised = []

/-- A request reaches its owner: the link can take it, its body has the layout of its kind, and its kind is taken in the
present mode (R187, R188). -/
abbrev Ready (k : RequestKind) (h : ReqHdr) (s : State) : Prop :=
  LinkReady s ∧ h.length = none ∧ k.takenIn s.plant.live = true ∧ Quiet s

/-- The state after a request has been answered: HL has counted the frame, the reply stands at the tail of the reply queue, the
transmitter follows that queue, the plant is as given, and HL has taken the notices it raised. -/
def State.replied (s : State) (h : ReqHdr) (r : Reply) (p : Plant) : State :=
  let l : Hl := { s.hl.accepted h with replies := s.hl.replies ++ [r] }
  deliver { s with hl := { l with transmitter := transmitterOf l.replies }, plant := p }

/-- The state after a request answered OK with data. -/
def State.answered (s : State) (k : RequestKind) (h : ReqHdr) (data : List Byte) (p : Plant) : State :=
  s.replied h ⟨replyKind k.num, h.tag, true, .ok, 0, data, none⟩ p

/-- The state after a request refused with a result and a detail: nothing but HL changes (R188). -/
def State.declined (s : State) (k : RequestKind) (h : ReqHdr) (r : Result) (detail : Nat) (data : List Byte) : State :=
  s.replied h ⟨replyKind k.num, h.tag, true, r, detail, data, none⟩ s.plant

/-- The state after an arrival that is no request: the plant is as given, and HL has taken the notices it raised. -/
def State.arrived (s : State) (p : Plant) : State := deliver { s with plant := p }

/-- The state after a request that its owner checks: refused by the first check that fails, with its result and detail, else the
state given (R188). -/
def State.checked (s : State) (k : RequestKind) (h : ReqHdr) : List Check → State → State
  | [], t => t
  | (fails, r, d) :: rest, t => if fails then s.declined k h r d [] else s.checked k h rest t

/-- A count of Table 10-x or 5-3 has not passed its largest value. -/
abbrev Counted (n : Nat) : Prop := n ≤ Config.countMax

/-- The Host Link's laws, between two commands: at most 64 notices (R192), ATTN high exactly while the notice queue is not
empty (R192), at most 2 replies (R187), counts that stay at 65 535 (R185), a receiver that hunts and an empty reply queue while
RXD is low (R186), a table cursor that names an entry of its table (R191), a transmitter that sends the made reply at the head of
the reply queue and holds TXD high otherwise (R184, R187), and no notice left untaken. -/
abbrev HlInv (s : State) : Prop :=
  s.hl.notices.length ≤ Config.noticeCapacity
    ∧ (s.hl.attn = true ↔ s.hl.notices ≠ [])
    ∧ s.hl.replies.length ≤ Config.replyCapacity
    ∧ (Counted s.hl.counts.accepted ∧ Counted s.hl.counts.noise ∧ Counted s.hl.counts.lengthErrors
        ∧ Counted s.hl.counts.gapErrors ∧ Counted s.hl.counts.framingErrors ∧ Counted s.hl.counts.crcErrors
        ∧ Counted s.hl.counts.overruns ∧ Counted s.hl.counts.breaks)
    ∧ (s.hl.rxdLow = true → s.hl.receiver = .hunting ∧ s.hl.replies = [])
    ∧ (∀ c ∈ s.hl.cursor, c.next < tableSize c.table ∧ 0 < c.remaining)
    ∧ s.hl.transmitter = transmitterOf s.hl.replies
    ∧ s.plant.raised = []

/-- The laws of the cellar stop (R178): STOP_ACTIVE is high and a stop source is present exactly while stop is in force, and the
state is ACTIVE exactly while the pin is LOW. -/
abbrev StopInv (s : State) : Prop :=
  (s.plant.msc.stopActive = true ↔ s.plant.msc.stop ≠ .clear)
    ∧ (s.plant.msc.source.isSome = true ↔ s.plant.msc.stop ≠ .clear)
    ∧ (s.plant.msc.stop = .active ↔ s.plant.msc.pinLow = true)

/-- A timer command stands at a time: the timer it names runs and ends then, or the part clock's second does (R173). No other command
stands at a time of its own. -/
def Plant.EndsAt (p : Plant) (d : Nat) : Instr → Prop
  | .partClockAdvance => d = p.msc.clockSince + 1000
  | .changeoverTimeout l => l < 48 ∧ ∃ x c, p.line l = some x ∧ x.state = .changeover ∧ x.change = some c ∧ c.primed = none
      ∧ d = c.start + 90000
  | .retripWindowClose l => l < 48 ∧ ∃ x c t, p.line l = some x ∧ x.change = some c ∧ c.primed = some t ∧ d = t + 5000
  | .validityTimerExpiry i => i < 160 ∧ ∃ k, p.ticket i = some k ∧ k.validity = .running d
  | .topupTimerExpiry i => i < 160 ∧ ∃ k, p.ticket i = some k ∧ k.topup = .running d
  | .noTicketDisplayEnd i => i < 96 ∧ (p.tap i).noTicket = some d
  | .pourLimitExpiry i => i < 96 ∧ ∃ u, (p.tap i).pour = some u ∧ u.limitEnd = some d
  | .endingTimerExpiry i => i < 96 ∧ ∃ u, (p.tap i).pour = some u ∧ u.endingEnd = some d
  | .lateCountExpiry i => i < 96 ∧ ∃ r, (p.tap i).late = some r ∧ d = r.lossBase + 60000
  | .armTimerExpiry i => i < 96 ∧ ∃ n u, (p.tap i).calibration = some (.armed n u d)
  | .resultTimerExpiry i => i < 96 ∧ ∃ c ml f n u, (p.tap i).calibration = some (.awaiting c ml f n u d)
  | .degradeTimerExpiry => p.cc.degradeEnd = some d
  | .pourLoadAgeOut => ∃ e rest, p.cc.window = e :: rest ∧ d = e.1 + 60000
  | .surgeHintEnd => p.cc.hintEnd = some d
  | .pumpTimerExpiry t => t < 8 ∧ (p.trunk t).pumpEnd = some d
  | .graceTimerExpiry => p.cc.graceEnd = some d
  | .drainingLimitExpiry j => ∃ x ∈ p.cs.jobs, x.id = j ∧ x.timer = some (.draining, d)
  | .capTimerExpiry j => ∃ x ∈ p.cs.jobs, x.id = j ∧ x.timer = some (.cap, d)
  | .pushLimitExpiry j => ∃ x ∈ p.cs.jobs, x.id = j ∧ x.timer = some (.push, d)
  | .stepDurationEnd j => ∃ x ∈ p.cs.jobs, x.id = j ∧ x.timer = some (.duration, d)
  | .pulsePhaseSwitch j => ∃ x ∈ p.cs.jobs, x.id = j ∧ (∃ on, x.phase = some (on, d)) ∧ ∀ k e, x.timer = some (k, e) → d < e
  | .proveLimitExpiry j => ∃ x ∈ p.cs.jobs, x.id = j ∧ x.timer = some (.prove, d)
  | .pauseTimerExpiry j => ∃ x ∈ p.cs.jobs, x.id = j ∧ x.timer = some (.pause, d)
  | .returnTimerExpiry j => ∃ x ∈ p.cs.jobs, x.id = j ∧ x.timer = some (.beerReturn, d)
  | .flushLimitExpiry j => ∃ x ∈ p.cs.jobs, x.id = j ∧ x.timer = some (.flush, d)
  | _ => False

/-- What a READ_TABLE or READ_MORE returns from a cursor (R191): the cursor left, and the data of the reply. The entries wanted are those
from the cursor's index on, with step IN_USE those in use; each is its index, its length and its fields. The first `n` of them are
placed: as many as the count still to return allows and as fit whole in 243 bytes. The cursor then stands at the first wanted entry not
placed, or is absent when the count is met or none is left. -/
def State.tableReply (s : State) (c : TableCursor) : Option TableCursor × List Byte :=
  let wanted := ((List.range (tableSize c.table)).drop c.next).filter fun i => c.step = .every ∨ s.plant.inUse c.table i = true
  let entries := wanted.map fun i => leBytes 1 i ++ leBytes 1 (s.tableFields c.table i).length ++ s.tableFields c.table i
  let n := (List.range (min c.remaining wanted.length)).countP fun k => (entries.take (k + 1)).flatten.length ≤ 243
  let left : Option TableCursor := if n = c.remaining then none else wanted[n]?.map fun i => { c with next := i, remaining := c.remaining - n }
  (left, leBytes 1 (tableNum c.table) ++ leBytes 1 left.isSome.toNat ++ leBytes 1 n ++ (entries.take n).flatten)

/-- The number of pours in progress (Table 3-4). -/
def Plant.poursInProgress (p : Plant) : Nat := countOf 96 fun i => (p.tap i).pour.isSome

/-- The law of reservations (R154): each pour in progress holds exactly one reservation, and the fill and the reservation count
are never above 2048 together. An IDLE tap has no pour (Table 3-2). -/
abbrev JournalInv (s : State) : Prop :=
  s.plant.poursInProgress = s.plant.au.reserved
    ∧ s.plant.fill + s.plant.au.reserved ≤ Config.journalCapacity
    ∧ ∀ i < 96, (s.plant.tap i).state = .idle → (s.plant.tap i).pour = none

/-- The law of ticket accounting (R28): the issued count is the number of records that are not FREE, plus the poured, short and
voided counts. -/
abbrev TicketInv (s : State) : Prop :=
  s.plant.au.issued
    = countOf 160 (fun i => (s.plant.ticket i).isSome) + s.plant.au.poured + s.plant.au.shorted + s.plant.au.voided

/-- The law on line content (R7): a line in SERVING or DRAINING has content BEER. In CONFIG every line is OUT_OF_SERVICE (R8) and
no cleaning job exists (Table 9-1). -/
abbrev LineInv (s : State) : Prop :=
  (∀ l x, s.plant.line l = some x → x.state.pours = true → x.content = .beer)
    ∧ (s.plant.live = false → s.plant.cs.jobs = [] ∧ ∀ l x, s.plant.line l = some x → x.state = .outOfService)

/-- The laws of the cooling controller: surge, effective setpoint and gate are what R120, R107 and R127 make them, the mode output
is REMOTE outside OFF (R109), the stage order list holds each stage once (R115), and the window holds at most 512 pairs (R118). -/
abbrev CoolingInv (s : State) : Prop :=
  s.plant.cc.surge = s.plant.cc.surgeFor
    ∧ s.plant.cc.effective = s.plant.cc.effectiveFor
    ∧ s.plant.cc.gate = s.plant.cc.gateFor
    ∧ (s.plant.cc.remote = true ↔ s.plant.cc.state ≠ .off)
    ∧ s.plant.cc.order.Perm [0, 1, 2]
    ∧ s.plant.cc.window.length ≤ Config.windowCapacity

/-- The blocks that a plant is made of. -/
inductive Block where
  | msc | sbc | lm | tkm | pe | cc | cs | au
  deriving DecidableEq, Repr

/-- The block stands as it did. -/
def Plant.SameAt (p q : Plant) : Block → Prop
  | .msc => q.msc = p.msc
  | .sbc => q.sbc = p.sbc
  | .lm => q.lm = p.lm
  | .tkm => q.tkm = p.tkm
  | .pe => q.pe = p.pe
  | .cc => q.cc = p.cc
  | .cs => q.cs = p.cs
  | .au => q.au = p.au

/-- Every block but those named stands as it did: the frame of a command. -/
abbrev Plant.OnlyIn (blocks : List Block) (p q : Plant) : Prop := ∀ b, b ∉ blocks → p.SameAt q b

/-! ### Totals -/

/-- One part of a product's totals after an entry of Table 8-3 (R165, R166): the volume of its category and the pour count grow, each
staying at its largest value. -/
def Totals.grown (cap : Nat) (c : Category) (ml pours : Nat) (t : Totals) : Totals where
  ticketed := if c = .ticketed then min cap (t.ticketed + ml) else t.ticketed
  free := if c = .free then min cap (t.free + ml) else t.free
  purge := if c = .purge then min cap (t.purge + ml) else t.purge
  calibration := if c = .calibration then min cap (t.calibration + ml) else t.calibration
  pours := min 4294967295 (t.pours + pours)
  shorts := t.shorts

/-- One part of a product's totals after a SHORT close (R166). -/
def Totals.shortened (t : Totals) : Totals := { t with shorts := min 4294967295 (t.shorts + 1) }

/-- The product totals have taken one entry of Table 8-3 for a product, and a SHORT close for another, each where there is one: once,
in the period and in the lifetime part together (R166). No other product's totals have changed. -/
def Plant.TotalsGrown (p : Plant) (product : Option Nat) (c : Category) (ml pours : Nat) (short : Option Nat) (q : Plant) : Prop :=
  ∀ n, n < 32 →
    let t := if short = some n then ((p.totals n).1.shortened, (p.totals n).2.shortened) else p.totals n
    q.totals n = if product = some n then (t.1.grown 4294967295 c ml pours, t.2.grown 281474976710655 c ml pours) else t

/-- Surge has been judged (R120) from what CC held just before: surge is active while the window's sum reaches the threshold or a hint runs;
a change of it recomputes the effective setpoint (R107) and the gate (R127). Nothing else of CC moves. -/
def Cc.SurgeJudged (c d : Cc) : Prop :=
  (d.surge = true ↔ c.threshold * 1000 ≤ (c.window.map (·.2)).sum ∨ c.hintEnd ≠ none)
    ∧ (d.surge ≠ c.surge → d.effective = (if d.surge then c.setpoint - c.offset else c.setpoint) ∧ d.gate = d.gateFor)
    ∧ (d.surge = c.surge → d.effective = c.effective ∧ d.gate = c.gate)
    ∧ d = { c with surge := d.surge, effective := d.effective, gate := d.gate }

/-- A completed pour's pair has joined the pour-load window (R118): at its tail, or, with 512 pairs held, its volume in the tail pair,
which keeps its end time. Surge has been judged. -/
def Cc.LoadAdded (c : Cc) (pair : Nat × Nat) (d : Cc) : Prop :=
  ∃ w : List (Nat × Nat),
    (c.window.length < 512 → w = c.window ++ [pair])
    ∧ (∀ front t v, 512 ≤ c.window.length → c.window = front ++ [(t, v)] → w = front ++ [(t, v + pair.2)])
    ∧ Cc.SurgeJudged { c with window := w } d

/-- A keg after an addition to its dispensed volume (R166, R167). -/
def Keg.drawn (ml : Nat) (g : Keg) : Keg := { g with dispensed := min 4294967295 (g.dispensed + ml) }

/-! ### What the reading commands send (Tables 11-1 and 11-4) -/

/-- Fields one after another, each its width in bytes and its value; the value of one that is absent is all bits one (Table 11-1). -/
def fieldBytes (l : List (Nat × Option Nat)) : List Byte := l.flatMap fun e => leBytes e.1 (e.2.getD (256 ^ e.1 - 1))

/-- A temperature as a field: 2 bytes, signed, and 0x7FFF for none (Table 11-1). -/
def tempField (t : Option Int) : Nat × Option Nat := (2, some (match t with | none => 32767 | some x => (x % 65536).toNat))

/-- A list as a field: its count in 1 byte, then its items; the count is 255 for none (Table 11-1). -/
def listBytes : Option (List (List Byte)) → List Byte
  | none => leBytes 1 255
  | some items => leBytes 1 items.length ++ items.flatten

/-- A flag as a number: 1 when set. -/
def flagNum (b : Bool) : Option Nat := some b.toNat

/-- A two-valued field whose first value is the true one: ON, OPEN, FITTED, RUNNING, ABOVE (DESIGN CHOICE, log 34). -/
def firstTrue (b : Bool) : Option Nat := some (!b).toNat

/-- The bytes of an input image (Table 11-7), two-valued inputs by the order of their values there. -/
def imageSpelled : InputImage → List Byte
  | .tap taps => taps.flatMap fun t =>
    fieldBytes [(1, flagNum t.pressed), (1, flagNum t.capFitted), (1, flagNum t.valveOpen), (1, flagNum t.cutOff), (3, some t.count.toNat)]
  | .cellar kegs fobs => fieldBytes ((kegs.toList ++ fobs.toList).map fun b => (1, flagNum b))
  | .cooling bath running tripped returns pumps =>
    fieldBytes (tempField (some bath) :: ((running.toList ++ tripped.toList).map fun b => (1, flagNum b))
      ++ returns.toList.map (fun t => tempField (some t)) ++ pumps.toList.map fun b => (1, flagNum b))
  | .cleaning tanks circuits =>
    fieldBytes (tanks.toList.map fun b => (1, flagNum b))
      ++ circuits.toList.flatMap fun c => fieldBytes [(1, flagNum c.above), (3, some c.meter.toNat), (1, flagNum c.running)]

/-- A time of the time base that is past, as the part-clock value that corresponds to it: 1 for each 1000 ms from the time at which the part
clock last advanced or was set, forwards or backwards (R107, R112; DEDUCED, log 28). -/
def Plant.shownPast (p : Plant) (d : Nat) : Nat :=
  (p.clock + BitVec.ofNat 32 ((d - p.msc.clockSince) / 1000) - BitVec.ofNat 32 ((p.msc.clockSince - d + 999) / 1000)).toNat

/-- The end of a running timer as a part-clock value: the part clock and the whole seconds left (R173; DEDUCED, log 28). -/
def Plant.shownEnd (p : Plant) (d : Nat) : Nat := (p.clock + BitVec.ofNat 32 ((d - p.now) / 1000)).toNat

/-- The fields of a calibration sub-record (Table 4-3) in the one layout of log 52 (DESIGN CHOICE). -/
def Calibration.spelled : Option Calibration → List (Nat × Option Nat)
  | none => [(1, none), (4, none), (4, none), (2, none), (4, none), (4, none)]
  | some (.armed nominal until_ _) => [(1, some 1), (4, none), (4, none), (2, none), (4, some nominal), (4, some until_.toNat)]
  | some (.awaiting pulses ml old nominal deadline _) =>
    [(1, some 2), (4, some pulses), (4, some ml), (2, some old), (4, some nominal), (4, some deadline.toNat)]

/-- A step item of a programme, 13 bytes (R194): action, medium, duration, volume factor, threshold, time limit, on-fail, repeat count. -/
def Step.spelled (st : Step) : List Byte :=
  fieldBytes (match st with
    | .push m f => [(1, some 0), (1, some (mediumNum m)), (2, none), (1, some f), (4, none), (2, none), (1, none), (1, none)]
    | .recirculate m d => [(1, some 1), (1, some (mediumNum m)), (2, some d), (1, none), (4, none), (2, none), (1, none), (1, none)]
    | .soak d => [(1, some 2), (1, none), (2, some d), (1, none), (4, none), (2, none), (1, none), (1, none)]
    | .pulse m d => [(1, some 3), (1, some (mediumNum m)), (2, some d), (1, none), (4, none), (2, none), (1, none), (1, none)]
    | .prove m t l r =>
      [(1, some 4), (1, some (mediumNum m)), (2, none), (1, none), (4, some t), (2, some l), (1, flagNum r.isSome), (1, r)])

/-- The five outputs of a circuit (Table 7-2): pump, medium, route, threshold, trunk connection. -/
def CircuitOut.spelled (o : CircuitOut) : List (Nat × Option Nat) :=
  [(1, firstTrue o.pump), (1, some (match o.medium with | none => 0 | some m => mediumNum m + 1)), (1, flagNum o.drain),
   (4, some o.threshold), (1, o.trunk)]

/-- The fields of a station entry (Table 5-3). Of an unused address every one is absent (DEDUCED, log 40). The poll class is that of a visit
now (DESIGN CHOICE, log 65), and the counts stand in the widths of log 14 (DESIGN CHOICE). -/
def Plant.stationSpelled (p : Plant) (a : Nat) : List Byte :=
  let x := p.station a
  let used : Option Station := if x.kind = none then none else some x
  let told : Option Descriptor := used.bind (·.reported)
  fieldBytes
    ([(1, x.kind.map stationTypeNum), (2, if x.kind = some .tap then some x.taps else none),
      (1, if x.kind = some .cellar then some x.block else none), (1, used.map (·.state.num)),
      (1, x.joinedFrom.map fun j => match j with | .absent => 0 | .lost => 3),
      (1, if x.state = .joining then used.bind fun y => flagNum y.descriptorAccepted else none)]
     ++ [(1, told.map fun d => enumFieldNum stationTypeNum d.kind), (1, told.map (·.taps)), (1, told.map (·.couplers)),
         (1, told.map (·.outlets)), (1, told.map (·.stages)), (1, told.map (·.trunks)), (1, told.map (·.circuits))]
     ++ [(1, if p.active a then firstTrue (p.fast a) else none), (1, used.bind fun y => flagNum y.dueNext), (2, used.map (·.misses)),
         (2, used.map (·.totalMisses)), (2, used.map (·.noise)), (2, used.map (·.restarts)),
         (1, used.bind fun y => flagNum y.restartSinceLoss), (1, used.bind fun y => flagNum y.initialPending),
         (1, used.bind fun y => flagNum y.trace)])

/-- The fields of a table entry, in the order of its owner's table (R191, R194), at the widths of Table 11-1 and, where it gives none, of
logs 14, 54, 61 and 62 (DESIGN CHOICE). An image of a station is unknown while no status of it is taken. -/
def State.entrySpelled (s : State) (t : TableName) (i : Nat) : List Byte :=
  let p := s.plant
  match t with
  | .products =>
    let d := p.product i
    fieldBytes [(2, d.map (·.code))] ++ (((d.map (·.name)).getD []) ++ List.replicate 12 0x20#8).take 12
      ++ fieldBytes [(4, d.map (·.tolerance)), (4, d.map (·.threshold))]
  | .sources =>
    let x := p.source i
    fieldBytes [(1, x.bound.map (·.1)), (1, x.bound.map (·.2)), (1, some x.state.num), (1, x.keg.map (·.product)),
      (4, x.keg.map (·.nominal)), (4, x.keg.map (·.dispensed)), (4, x.keg.map (·.fillRef.toNat)), (4, x.keg.map (·.loadedAt.toNat)),
      (1, x.line), (1, if x.state = .spent ∨ x.state = .fault then flagNum x.closePending else none)]
  | .lines =>
    let d := p.line i
    let c := d.bind (·.change)
    fieldBytes [(1, d.map (·.product)), (1, d.map (·.trunk)), (1, d.map (·.station)), (1, d.map (·.index)), (4, d.map (·.volume)),
        (1, d.bind fun x => firstTrue x.auto), (1, d.map (·.state.num)), (1, d.map fun x => contentNum x.content),
        (1, d.bind fun x => flagNum x.unsupervised), (1, d.bind (·.job))]
      ++ listBytes (d.map fun x => x.chain.map (leBytes 1))
      ++ fieldBytes [(1, c.map (·.position)), (1, c.bind (·.fromPos)), (4, c.map fun k => p.shownPast k.start),
        (4, c.bind fun k => k.primed.map p.shownPast), (1, d.bind fun x => flagNum x.declaredOut)]
  | .tickets =>
    let d := p.ticket i
    let claim : Option (Nat × Nat) := d.bind fun k => match k.state with
      | .claimed .queued tap => some (1, tap)
      | .claimed .part tap => some (3, tap)
      | _ => none
    fieldBytes [(1, some (match d with | none => 0 | some k => k.state.num)), (4, d.map (·.reference.toNat)), (1, d.map (·.station)),
      (1, d.map (·.product)), (4, d.map (·.portion)), (4, d.map (·.remaining)), (4, d.map (·.issuedAt.toNat)),
      (4, d.map (·.expiresAt.toNat)), (1, claim.map (·.1)), (1, claim.map (·.2)), (4, d.bind fun k => k.topupDeadline.map (·.toNat)),
      (1, d.bind fun k => (p.queue k.station).findIdx? (· = i))]
  | .taps =>
    let x := p.tap i
    fieldBytes ([(1, x.station.map (·.1)), (1, x.station.map (·.2)), (1, x.line), (1, some (tapModeNum x.mode)), (1, some x.state.num),
        (1, some x.holds.num), (1, flagNum x.off), (2, some x.factor), (2, some x.limit), (1, x.handle.bind flagNum),
        (1, x.capImage.bind firstTrue), (1, x.valveImage.bind firstTrue), (3, x.count.map (·.toNat)), (1, some x.lamp.num)]
      ++ Calibration.spelled x.calibration
      ++ [(4, some x.creep), (1, x.staged.mode.map tapModeNum), (2, x.staged.factor), (2, x.staged.limit), (1, x.pour.map (·.kind.num)),
        (4, x.pour.map (·.startClock.toNat)), (4, x.pour.map (·.startBase)), (1, x.pour.bind (·.ticket)), (1, x.pour.bind (·.source))])
  | .stations => p.stationSpelled (i + 1)
  | .stationInputs =>
    let x := p.station (i + 1)
    fieldBytes [(1, x.kind.map stationTypeNum), (1, flagNum x.inputs.isSome)] ++ ((x.inputs.map imageSpelled).getD [])
  | .stationOutputs =>
    let x := p.station (i + 1)
    let written := ({ p with msc := { p.msc with mode := .live, stop := .clear } }).compose (i + 1)
    fieldBytes [(1, x.kind.map stationTypeNum), (1, flagNum x.inputs.isSome)] ++ (BusFrame.poll (i + 1) written).body.drop 1
  | .cooling =>
    let c := p.cc
    fieldBytes [(1, some c.state.num), tempField (some c.setpoint), tempField (some 5), (1, flagNum c.programmed.isSome),
      (2, some ((c.programmed.map (·.1)).getD 180)), (2, some ((c.programmed.map (·.2)).getD 300)), (2, some c.threshold),
      tempField (some c.offset), tempField c.lastBath, (1, flagNum c.probeFault), (4, c.degradeEnd.map p.shownEnd),
      (1, c.cause.map (·.num)), (4, c.hintEnd.map p.shownEnd), (1, flagNum c.surge), tempField (some c.effective),
      (4, c.lastStart.map p.shownPast), (4, c.graceEnd.map p.shownEnd), (1, firstTrue c.gate), (1, flagNum c.joinedOnce),
      (4, some (c.window.map (·.2)).sum)]
  | .stages =>
    let x := p.stage i
    fieldBytes [(1, firstTrue x.command), (4, x.lastChange.map p.shownPast), (1, x.running.bind flagNum), (1, flagNum x.tripped)]
  | .trunks =>
    let x := p.trunk i
    fieldBytes [(1, flagNum x.inUse), tempField (some x.warm), tempField (some x.hot), tempField x.temperature, (1, some x.state.num),
      (1, firstTrue x.pump), (1, x.feedback.bind firstTrue), (1, flagNum x.pumpFault), (4, x.pumpEnd.map p.shownEnd), (1, x.circuit)]
  | .programmes =>
    let d := p.programme i
    listBytes (d.map fun g => g.steps.map Step.spelled) ++ fieldBytes [(1, d.bind fun g => flagNum g.valid)]
  | .jobs =>
    let d := p.cs.jobs[i]?
    fieldBytes [(1, d.map (·.id)), (1, d.map (·.trunk))] ++ listBytes (d.map fun j => j.lines.map (leBytes 1))
      ++ fieldBytes [(1, d.map (·.programme)), (1, d.map (·.state.num)), (1, d.bind fun j => j.pausedFrom.map (·.num)),
        (1, d.bind (·.step)), (1, d.map (·.repeats)), (1, d.bind (·.circuit)), (4, d.map (·.requestedAt.toNat)),
        (1, d.bind fun j => flagNum j.chemical), (1, d.bind fun j => flagNum j.proof), (1, d.bind (·.returnLine)),
        (3, d.bind fun j => j.base.map (·.toNat)), (1, d.map (·.trunkState.num)), (1, d.bind fun j => j.abortCause.map (·.num)),
        (1, d.bind fun j => flagNum j.flushFailed)]
  | .circuits =>
    let c := p.circuit i
    fieldBytes ([(1, some c.state.num), (1, c.job)] ++ c.out.spelled
      ++ [(1, c.above.bind firstTrue), (3, c.meter.map (·.toNat)), (1, c.running.bind firstTrue), (1, c.faultCause.map (·.num))])
  | .journalState =>
    let u := p.au
    fieldBytes [(2, some u.journal.length), (2, some u.reserved), (2, some (2048 - u.journal.length - u.reserved)),
      (4, u.journal.head?.map (·.seq.toNat)), (4, some u.nextSeq.toNat), (2, some u.gap), (1, flagNum u.refused), (2, some u.mark),
      (1, flagNum u.armed), (4, some u.cursorSeq.toNat), (1, some u.cursorOffset)]
  | .accounts =>
    let u := p.au
    fieldBytes [(4, some u.period.toNat), (4, some u.openedAt.toNat), (4, some u.issued), (4, some u.poured), (4, some u.shorted),
      (4, some u.voided)]
  | .productTotals =>
    let part : Nat → Totals → List (Nat × Option Nat) := fun w x =>
      [(w, some x.ticketed), (w, some x.free), (w, some x.purge), (w, some x.calibration), (4, some x.pours), (4, some x.shorts)]
    fieldBytes (part 4 (p.totals i).1 ++ part 6 (p.totals i).2 ++ [(2, (p.product i).map (·.code))])
  | .tapTotals => fieldBytes [(4, some (p.tapTotals i).1), (4, some (p.tapTotals i).2)]
  | .mode =>
    fieldBytes [(1, some p.msc.mode.num), (1, some p.msc.stop.num), (1, p.msc.source.map (·.num)), (1, firstTrue p.msc.pinLow),
      (4, some p.clock.toNat), (4, p.msc.lastOnset.map (·.toNat)), (4, p.msc.liveAt.map (·.toNat))]
  | .link =>
    let c := s.hl.counts
    fieldBytes [(4, some (match s.hl.rate with | .r57600 => 57600 | .r115200 => 115200 | .r230400 => 230400 | .r460800 => 460800)),
      (1, some (match s.hl.receiver with | .hunting => 0 | .length => 1 | .body _ _ => 2 | .crc _ _ _ => 3)), (2, some c.accepted),
      (2, some c.noise), (2, some c.lengthErrors), (2, some c.gapErrors), (2, some c.framingErrors), (2, some c.crcErrors),
      (2, some c.overruns), (2, some c.breaks)]

/-- The part of a journal entry that belongs to its kind (Table 11-4). The number of the outcome PARTIAL is a free value (DESIGN CHOICE, log
9), and so is what 2 bytes hold of a factor above 65 534 (DESIGN CHOICE, log 37). An AMEND carries no product code (DESIGN CHOICE, log 80),
and the outcome of a CLEAN_RUN is COMPLETE 0 or ABORTED 1 (DESIGN CHOICE, log 81). -/
def EntryBody.spelled : EntryBody → List Byte
  | .pour tap line source code kind ml duration cause temp incomplete held ticket =>
    fieldBytes [(1, tap), (1, line), (1, source), (2, code), (1, some kind.num), (4, some ml), (4, some duration), (1, some cause.num),
        (1, some temp.num), (1, some (incomplete.toNat + 2 * held.toNat + 4 * ticket.isSome.toNat))]
      ++ (match ticket with
        | none => []
        | some (reference, portion, outcome) => fieldBytes [(4, some reference.toNat), (4, some portion), (1, some outcome.num)])
  | .amend seq tap ml => fieldBytes [(4, some seq.toNat), (1, some tap), (4, some ml)]
  | .ticketClose reference station code portion outcome remaining =>
    fieldBytes [(4, some reference.toNat), (1, some station), (2, code), (4, some portion), (1, some outcome.num), (4, some remaining)]
  | .kegClose position fillRef code nominal dispensed yield early =>
    fieldBytes [(1, some position), (4, some fillRef.toNat), (2, code), (4, some nominal), (4, some dispensed), (2, some yield),
      (1, flagNum early)]
  | .changeover line fromPos toPos result => fieldBytes [(1, some line), (1, fromPos), (1, toPos), (1, some result.num)]
  | .purge line source code ml => fieldBytes [(1, some line), (1, source), (2, code), (4, some ml)]
  | .cleanRun job trunk programme cause flush contents =>
    fieldBytes [(1, some job), (1, some trunk), (1, some programme), (1, flagNum cause.isSome), (1, cause.map (·.num)), (1, some flush.num)]
      ++ listBytes (some (contents.map fun e => fieldBytes [(1, some e.1), (1, e.2.map contentNum)]))
  | .calibration tap pulses ml oldFactor => fieldBytes [(1, some tap), (4, some pulses), (4, some ml), (2, some oldFactor)]
  | .calResult tap measured newFactor accepted =>
    fieldBytes [(1, some tap), (4, some measured), (2, some (if newFactor ≤ 65534 then newFactor else Config.wideFactor newFactor)),
      (1, flagNum accepted)]
  | .leak tap ml => fieldBytes [(1, some tap), (4, some ml)]
  | .periodClose period records =>
    fieldBytes [(4, some period.toNat), (1, some records.length), (1, some 0), (1, some 1)]
      ++ records.flatMap fun x => fieldBytes [(2, some x.code), (4, some x.ticketed), (4, some x.free), (4, some x.purge),
        (4, some x.calibration), (4, some x.pours), (4, some x.shorts)]
  | .stop onset source => fieldBytes [(1, firstTrue onset), (1, some source.num)]
  | .start products tapStations cellarStations coolingStations cleaningStations lines taps trunks programmes loaded =>
    fieldBytes ([products, tapStations, cellarStations, coolingStations, cleaningStations, lines, taps, trunks, programmes, loaded].map
      fun n => (1, some n))

/-! ### Taps and tickets -/

/-- The first row of Table 3-2 that applies to a tap with the holds it has (R42). -/
def Plant.tapRow (p : Plant) (t : Tap) : TapState :=
  if t.line = none then .unassigned
  else if t.cleaning = true then .cleaning
  else if t.off = true ∧ t.pour = none then .off
  else if (t.station.any fun b => decide ((p.station b.1).kind = some .tap ∧ (p.station b.1).state = .active)) = false then .offline
  else match t.pour with
    | some v => if v.cause = none then .pouring else .ending
    | none => if t.holds = ⟨false, false, false, false, false⟩ then .idle else .held

/-- The ticket of a pour has been judged at the pour's end, by the volume and the end cause (R34). POURED and SHORT close it (R27): its
record is FREE, it is out of its station's queue, and its counter is one higher (R28). PARTIAL keeps it in the queue, its remaining volume
less by what was poured, and with a top-up deadline and timer from now on if it has none yet (R35). Either way the station's product marks
are those of the queue as it is left (R39). No other ticket, queue or counter changes, and none at all without a ticket. -/
def Plant.TicketSettled (p : Plant) (ticket : Option Nat) (ml : Nat) (cause : EndCause) (q : Plant) : Prop :=
  let judged : Option Ticket := ticket.bind p.ticket
  let closes : Outcome → Nat := fun o => if (judged.any fun r => decide (p.pourOutcome r ml cause = o)) = true then 1 else 0
  (q.au.poured = p.au.poured + closes .poured ∧ q.au.shorted = p.au.shorted + closes .short
      ∧ q.au.issued = p.au.issued ∧ q.au.voided = p.au.voided)
    ∧ (judged = none → q.tkm = p.tkm)
    ∧ (∀ n, ticket ≠ some n → q.ticket n = p.ticket n)
    ∧ ∀ n r, ticket = some n → p.ticket n = some r →
        let part : Bool := p.pourOutcome r ml cause = .part
        q.ticket n =
          (if part = true then
            some { r with
              state := .part, remaining := r.remaining - ml
              topupDeadline := some (r.topupDeadline.getD (p.clock + BitVec.ofNat 32 p.tkm.window))
              topup := if r.topupDeadline = none then .running (p.now + p.tkm.window * 1000) else r.topup }
           else none)
        ∧ (∀ a, q.queue a = if a = r.station ∧ part = false then (p.queue a).filter (· ≠ n) else p.queue a)
        ∧ (∀ a, 1 ≤ a → a ≤ 30 → q.marksOf a = if a = r.station then q.queueMarks a else p.marksOf a)

/-! ### Kegs and changeovers -/

/-- The KEG_CLOSE entry of a keg on a position (R6, R170). -/
def Plant.closeOf (p : Plant) (i : Nat) (k : Keg) : EntryBody :=
  .kegClose i k.fillRef (p.code k.product) k.nominal k.dispensed (min 65535 (k.dispensed * 1000 / k.nominal))
    (k.nominal * 15 < (k.nominal - k.dispensed) * 100)

/-- The KEG_CLOSE entry of a keg has been asked for (R6, R170): it is written, or counted when it finds no place (R159), and, written or
not, a yield below 950 or above 1030 per mille raises YIELD_DRIFT with the position, the yield and the product index. Without a keg
nothing is asked for. -/
def Plant.KegClosed (p : Plant) (i : Nat) (keg : Option Keg) (q : Plant) : Prop :=
  (keg = none → q.au = p.au ∧ q.raised = p.raised)
    ∧ ∀ k, keg = some k →
        let y := min 65535 (k.dispensed * 1000 / k.nominal)
        let w := p.record (p.closeOf i k)
        q.au = w.au ∧ q.raised = w.raised ++ if y < 950 ∨ 1030 < y then [⟨.yieldDrift, i, y, k.product, p.clock⟩] else []

/-- A position has ended its use as SPENT or FAULT (R6): it has left its chain, with its SOURCE_STATE notice. While pours in progress name
it, close pending is set and nothing is written; with none, its KEG_CLOSE entry is asked for at once. -/
def Plant.KegEnded (p : Plant) (i : Nat) (st : SourceState) (q : Plant) : Prop :=
  let x := p.source i
  let told : Plant := { p with raised := p.raised ++ [⟨.sourceState, i, st.num, 255, p.clock⟩] }
  (∀ j, q.source j =
      if j = i then { x with state := st, line := none, closePending := x.closePending || decide (0 < x.pours) } else p.source j)
    ∧ (∀ l, q.line l = (p.line l).map fun y => { y with chain := y.chain.filter (· ≠ i) })
    ∧ (0 < x.pours → q.au = p.au ∧ q.raised = told.raised)
    ∧ (x.pours = 0 → told.KegClosed i x.keg q)
    ∧ p.OnlyIn [.lm, .au] q

/-- The outlet outputs of a line by Table 1-6 (R10): in CHANGEOVER the coupler of the position tried, else that of an ON_LINE head. A
CLEANING line has an ON_LINE head while its beer return runs, and only then. -/
def Plant.outletOf (p : Plant) (x : Line) : Outlet :=
  let head := x.chain.head?.filter fun i => (p.source i).state = .onLine
  let coupler : Option Nat → Option Nat := fun i => i.bind fun n => (p.source n).bound.map (·.2)
  match x.state with
  | .serving | .draining => ⟨coupler head, .supply, false⟩
  | .changeover => ⟨coupler (x.change.map (·.position)), .supply, true⟩
  | .cleaning => if head = none then ⟨none, .clean, false⟩ else ⟨coupler head, .supply, false⟩
  | .dry | .locked | .outOfService => ⟨coupler head, .closed, false⟩

/-- The line stands as `y`, its LINE_STATE notice has been raised (R9), and its outlet outputs are those of Table 1-6 (R10). -/
abbrev Plant.LineNoted (q : Plant) (l : Nat) (y : Line) : Prop :=
  q.line l = some y ∧ ⟨.lineState, l, y.state.num, contentNum y.content, q.clock⟩ ∈ q.raised ∧ y.outlet = q.outletOf y

/-- The CHANGEOVER entries of the attempts under way on certain lines, all interrupted at one arrival (R20), in ascending line number
(DESIGN CHOICE, log 89). -/
def Plant.interruptions (p : Plant) (hit : Line → Bool) : List EntryBody :=
  (List.range 48).filterMap fun l => (p.line l).bind fun x =>
    if x.state = .changeover ∧ hit x = true then x.change.map fun c => .changeover l c.fromPos (some c.position) .interrupted else none

/-! ### Cleaning jobs -/

/-- A line of a job that waits in DRAINING or CAP_CHECK is SERVING (R137). -/
def Plant.stillServes (p : Plant) (k : Job) : Bool :=
  decide (k.state = .draining ∨ k.state = .capCheck) && k.lines.any fun l => (p.line l).any fun x => decide (x.state = .serving)

/-- Every line of the job can be taken for cleaning (R23, R137). -/
def Plant.linesTakeable (p : Plant) (k : Job) : Bool :=
  k.lines.all fun l => (p.line l).all fun x =>
    decide (x.state = .draining ∨ x.state = .dry ∨ x.state = .locked ∨ x.state = .outOfService)

/-- Draining ends: its lines can be taken and no tap of them is POURING or ENDING (R137). -/
def Plant.drainingEnds (p : Plant) (k : Job) : Bool :=
  decide (k.state = .draining) && p.linesTakeable k
    && (p.tapsOfLines k.lines).all fun t => decide ((p.tap t).state ≠ .pouring ∧ (p.tap t).state ≠ .ending)

/-- The cap check ends: every tap of the cap set shows FITTED, and its lines can be taken (R138). -/
def Plant.capCheckEnds (p : Plant) (k : Job) : Bool :=
  decide (k.state = .capCheck) && k.capSet.all (fun t => decide ((p.tap t).capImage = some true)) && p.linesTakeable k

/-- A pause ends: every tap of the cap set whose line is still in the job shows FITTED (R144). -/
def Plant.pauseEnds (p : Plant) (k : Job) : Bool :=
  decide (k.state = .paused) && k.capSet.all fun t =>
    !((p.tap t).line.any fun l => k.remaining.contains l) || decide ((p.tap t).capImage = some true)

/-- The first of R150's four conditions for an abort flush that does not hold, as the cause of the failed flush: the cleaning
station, the cellar stations of the lines still in the job and the tap stations of its cap set (of its lines' taps while DRAINING)
are ACTIVE; stop is not in force; the water tank is OK; every tap of the cap set whose line is still in the job shows FITTED. -/
def Plant.flushFault (p : Plant) (j : Job) : Option FaultCause :=
  let still : Nat → Bool := fun t => (p.tap t).line.any fun l => j.remaining.contains l
  let taps := if j.state = .draining then (List.range 96).filter still else j.capSet
  if !((p.addressOf .cleaning).any p.active && j.remaining.all (fun l => (p.line l).all fun x => p.active x.station)
      && taps.all fun t => (p.tap t).station.all fun b => p.active b.1) then some .stationLost
  else if p.msc.stop ≠ .clear then some .stop
  else if !p.cs.tankOk .water then some .tankLow
  else if !(j.capSet.all fun t => !still t || (p.tap t).capImage = some true) then some .cap
  else none

/-- The state and content of a line still in a job that is aborted without a flush (R149, R24). -/
def Line.settled (proof : Bool) (x : Line) : LineState × Content :=
  if x.state = .cleaning then
    if proof then (.locked, .water)
    else match x.content with
      | .beer => if x.chain = [] then (.dry, .gas) else (.serving, .beer)
      | .gas => (.dry, .gas)
      | .water => (.locked, .water)
      | .cleaner | .unproven => (.locked, .unproven)
  else (if x.state = .draining then .serving else x.state, x.content)

/-- The state and content of a line still in a job whose flush ends or fails (R150, R151). -/
def Line.unproved (x : Line) : LineState × Content := if x.state = .cleaning then (.locked, .unproven) else (x.state, x.content)

/-- The plant with the PURGE entry of the line that a job has under return, if it has one (R146). -/
def Plant.purged (p : Plant) (j : Job) : Plant :=
  match j.returnLine with
  | some l => p.purge j l (p.headOf l)
  | none => p

/-- The trunks after a job's end (R131, R148): that of the job's circuit has no connected circuit, and nothing else of CC has changed. -/
def Plant.TrunkFreed (p : Plant) (j : Job) (q : Plant) : Prop :=
  (∀ t, q.trunk t =
      if j.circuit.any fun c => decide ((p.circuit c).out.trunk = some t) then { p.trunk t with circuit := none } else p.trunk t)
    ∧ q.cc = { p.cc with trunks := q.cc.trunks }

/-- A job has finished as ABORTED (R148 to R151): its lines still in it stand as given, those that were CLEANING with the outlet outputs of
Table 1-6 (R10, R24), every line's job id is cleared, its taps are released, its circuit is FREE, or in FAULT with a cause, and its trunk is
connected to none, the CLEAN_RUN entry is asked for after `before`, and JOB_STATE is the last notice. -/
def Plant.JobEnded (p : Plant) (j : Job) (cause : Option AbortCause) (flush : FlushResult) (fault : Option FaultCause)
    (after : Line → LineState × Content) (before q : Plant) : Prop :=
  q.cs.jobs = p.cs.jobs.filter (fun k => k.id ≠ j.id)
    ∧ (∀ c, j.circuit = some c → c < 2 →
        (q.circuit c).state = (if fault.isSome then .fault else .free) ∧ (q.circuit c).job = none
        ∧ (q.circuit c).out = CircuitOut.idle ∧ (q.circuit c).faultCause = fault)
    ∧ (∀ l, l < 48 → l ∈ j.lines → q.flow l = false)
    ∧ (∀ l x, l ∈ j.remaining → p.line l = some x → ∃ y, q.line l = some y
        ∧ (y.state, y.content) = after x ∧ y.chain = x.chain ∧ (l ∈ j.lines → x.job = some j.id → y.job = none)
        ∧ (x.state = .cleaning →
            (y.state = .locked → y.outlet = ⟨none, .closed, false⟩)
            ∧ (y.state = .serving → y.outlet = ⟨x.chain.head?.bind p.couplerOf, .supply, false⟩)
            ∧ (y.state = .dry → y.outlet.route = .closed ∧ y.outlet.vent = false))
        ∧ (x.state = .draining → y.state = .serving → y.outlet.route = .supply ∧ y.outlet.vent = false))
    ∧ p.TrunkFreed j q
    ∧ (∀ l, l ∉ j.remaining → q.line l =
        (p.line l).map fun x => { x with job := if l ∈ j.lines ∧ x.job = some j.id then none else x.job })
    ∧ (∀ i l, i < 96 → l ∈ j.remaining → (p.tap i).line = some l → (p.tap i).state = .cleaning → (p.tap i).cleaning = true →
        if (p.tap i).capImage = some true then (q.tap i).cleaning = true ∧ (q.tap i).released = true else (q.tap i).cleaning = false)
    ∧ q.au = (before.record (.cleanRun j.id j.trunk j.programme cause flush (j.lines.map fun l => (l, (q.line l).map (·.content))))).au
    ∧ (∀ i, (q.source i).keg = (before.source i).keg)
    ∧ (∀ c why, j.circuit = some c → fault = some why → ⟨.circuitFault, c, j.id, why.num, p.clock⟩ ∈ q.raised)
    ∧ (∃ l, q.raised = l ++ [⟨.jobState, j.id, 8, match cause with | some c => c.num | none => 0, p.clock⟩])
    ∧ p.OnlyIn [.lm, .pe, .cc, .cs, .au] q

/-- An abort flush runs (R150): FLUSHING, the water pumped to drain through every line still in the job, the meter base, 600 s at
the most. -/
def Plant.FlushStarted (p : Plant) (j : Job) (cause : AbortCause) (q : Plant) : Prop :=
  (∃ x, q.job j.id = some x ∧ x.state = .flushing ∧ x.abortCause = some cause ∧ x.timer = some (.flush, q.now + 600000)
      ∧ x.step = none ∧ x.remaining = j.remaining ∧ x.base = j.circuit.bind fun c => (p.circuit c).meter)
    ∧ (∀ c, j.circuit = some c → c < 2 →
        (q.circuit c).out = { (p.circuit c).out with pump := true, medium := some .water, drain := true }
        ∧ (q.circuit c).state = (p.circuit c).state)
    ∧ (∀ l, l < 48 → q.flow l = if l ∈ j.remaining then true else if l ∈ j.lines then false else p.flow l)
    ∧ ⟨.jobState, j.id, 6, 0, p.clock⟩ ∈ q.raised ∧ p.OnlyIn [.pe, .cs] q

/-- A job holding a circuit has been aborted with a cause (R149, Table 7-6). With chemical in its lines and no proof since, its abort
flush runs when R150's conditions hold, and fails at once with the first that does not; otherwise its lines are settled, after the
PURGE entry of a line under return. -/
def Plant.JobAborted (p : Plant) (id : Nat) (cause : AbortCause) (q : Plant) : Prop :=
  ∀ j, p.job id = some j →
    (j.chemical = true ∧ j.proof = false ∧ p.flushFault j = none → p.FlushStarted j cause q)
    ∧ (∀ why, j.chemical = true ∧ j.proof = false → p.flushFault j = some why →
        p.JobEnded j (some cause) .failed (some why) Line.unproved p q)
    ∧ (j.chemical = false ∨ j.proof = true → p.JobEnded j (some cause) .notRun none (Line.settled j.proof) (p.purged j) q)

/-- The outputs and flow requests of a running step have been written (Table 7-5); `on` is the phase of a PULSE step. -/
def Plant.StepWritten (j : Job) (st : Step) (on : Bool) (q : Plant) : Prop :=
  let flows : Bool := match st with | .soak _ => false | .pulse _ _ => on | _ => true
  (∀ c, j.circuit = some c → c < 2 →
      (q.circuit c).out.pump = flows ∧ (q.circuit c).out.medium = st.medium?
      ∧ (q.circuit c).out.drain = (match st with | .push _ _ | .prove _ _ _ _ => true | _ => false)
      ∧ (∀ m t l f, st = .prove m t l f → (q.circuit c).out.threshold = t))
    ∧ (∀ l, l < 48 → l ∈ j.remaining → j.circuit ≠ none → q.flow l = flows)

/-- A step has started (R140, Table 7-5), or its medium's tank is LOW or unknown and the job is aborted (R149). Samples are counted from its
start on: none is BELOW yet, and the first comes 1 s after it at the least (R143). -/
def Plant.StepStarted (p : Plant) (j : Job) (k : Nat) (st : Step) (repeats : Nat) (q : Plant) : Prop :=
  (∀ m, st.medium? = some m → p.cs.tankOk m = false → p.JobAborted j.id .tankLow q)
    ∧ ((∀ m, st.medium? = some m → p.cs.tankOk m = true) →
        (∃ x, q.job j.id = some x ∧ x.state = j.state ∧ x.step = some k ∧ x.repeats = repeats ∧ x.timer = some (st.timer q.now)
            ∧ x.phase = (match st with | .pulse _ _ => some (true, q.now + 10000) | _ => none)
            ∧ x.base = (match st with | .push _ _ | .prove _ _ _ _ => j.circuit.bind fun c => (p.circuit c).meter | _ => none)
            ∧ x.sampled = q.now ∧ x.consecutive = 0
            ∧ x.chemical = (j.chemical || st.chemical) ∧ x.proof = (j.proof && !st.chemical) ∧ x.remaining = j.remaining)
        ∧ (∃ l, q.raised = l ++ [⟨.jobStep, j.id, k, repeats, p.clock⟩])
        ∧ Plant.StepWritten j st true q
        ∧ (∀ l, q.line l = (p.line l).map fun x =>
            if l ∈ j.remaining ∧ x.state = .cleaning then
              { x with content := match st.medium?, x.content with
                | none, c => c
                | some .water, .beer | some .water, .gas => .water
                | some .water, c => c
                | some .caustic, _ | some .acid, _ => .cleaner }
            else x))

/-- The return of a line still in the job has started (R145): the head is ON_LINE and selected, pump off, drain, the product's
threshold, this line alone flowing, 300 s. `passed` are the lines passed over before it, which have left the job. -/
def Plant.ReturnStarted (p : Plant) (j : Job) (passed : List Nat) (l : Nat) (q : Plant) : Prop :=
  q.job j.id = some { j with
      remaining := j.remaining.filter (fun m => m ∉ passed), returnLine := some l, consecutive := 0, sampled := p.now
      base := j.circuit.bind fun c => (p.circuit c).meter, timer := some (.beerReturn, p.now + 300000) }
    ∧ (∀ x hd more, p.line l = some x → x.chain = hd :: more → (q.source hd).state = .onLine
        ∧ ∃ y, q.line l = some y ∧ y.state = .cleaning ∧ y.content = x.content ∧ y.chain = x.chain
            ∧ y.outlet = ⟨p.couplerOf hd, .supply, false⟩)
    ∧ (∀ c, j.circuit = some c → c < 2 →
        (q.circuit c).out.pump = false ∧ (q.circuit c).out.medium = none ∧ (q.circuit c).out.drain = true
        ∧ ∀ x d, p.line l = some x → p.product x.product = some d → (q.circuit c).out.threshold = d.threshold)
    ∧ (∀ m, m < 48 → m ∈ j.remaining → q.flow m = decide (m = l)) ∧ (∃ n, q.raised = n ++ [⟨.jobStep, j.id, 255, l, p.clock⟩])

/-- The job has completed (R148): every line's job id is cleared, its circuit is FREE with its default outputs and its trunk connected to
none, CLEAN_RUN is asked for with the outcome COMPLETE, JOB_STATE is the last notice, and the record is gone. -/
def Plant.JobCompleted (p : Plant) (j : Job) (q : Plant) : Prop :=
  q.cs.jobs = p.cs.jobs.filter (fun k => k.id ≠ j.id)
    ∧ (∀ c, j.circuit = some c → c < 2 →
        (q.circuit c).state = .free ∧ (q.circuit c).job = none ∧ (q.circuit c).out = CircuitOut.idle ∧ (q.circuit c).faultCause = none)
    ∧ (∀ l x, l ∈ j.lines → p.line l = some x → x.job = some j.id → ∃ y, q.line l = some y ∧ y.job = none)
    ∧ p.TrunkFreed j q
    ∧ q.au = (p.record (.cleanRun j.id j.trunk j.programme none .notRun (j.lines.map fun l => (l, (q.line l).map (·.content))))).au
    ∧ (∃ n, q.raised = n ++ [⟨.jobState, j.id, 7, 0, p.clock⟩])

/-- Beer return passes a line over (R143, R147): in a return-only job one that does not hold WATER, in any job one without a head. -/
def Plant.passedOver (p : Plant) (only : Bool) (l : Nat) : Bool :=
  (p.line l).any fun x => (only && decide (x.content ≠ .water)) || decide (x.chain = [])

/-- Beer return has gone on to its next line (R139, R145, R147, R148), every line still in the job being CLEANING. The lines at the front
that it passes over are LOCKED, route CLOSED, UNPROVEN where a return-only job finds no WATER (R143), else WATER; their flow requests are
off, also when no return follows (DEDUCED, log 48), and their taps are released. The first line behind is returned; with none left the job
completes. -/
def Plant.ReturnGoesOn (p : Plant) (j : Job) (q : Plant) : Prop :=
  let only : Bool := p.stepsOf j.programme = []
  let passed := j.remaining.takeWhile (p.passedOver only)
  let behind := j.remaining.dropWhile (p.passedOver only)
  (∀ l ∈ j.remaining, ∃ x, p.line l = some x ∧ x.state = .cleaning ∧ ∀ i ∈ x.chain, i < 64) →
    (∀ l x, l ∈ passed → p.line l = some x → q.flow l = false ∧ ∃ y, q.line l = some y
        ∧ y.state = .locked ∧ y.content = (if only = true ∧ x.content ≠ .water then .unproven else .water) ∧ y.job = none
        ∧ y.chain = x.chain ∧ y.outlet = ⟨none, .closed, false⟩)
      ∧ (∀ i l, i < 96 → l ∈ passed → (p.tap i).line = some l → (p.tap i).cleaning = true →
          if (p.tap i).capImage = some true then (q.tap i).cleaning = true ∧ (q.tap i).released = true else (q.tap i).cleaning = false)
      ∧ (∀ l, l ∉ j.remaining → (q.line l).map (fun y => { y with job := none }) = (p.line l).map fun x => { x with job := none })
      ∧ (∀ l rest, behind = l :: rest → p.ReturnStarted j passed l q ∧ p.OnlyIn [.lm, .pe, .cs] q)
      ∧ (behind = [] → p.JobCompleted j q ∧ p.OnlyIn [.lm, .pe, .cc, .cs, .au] q)
      ∧ (∃ n, q.raised = p.raised ++ n)

/-- The job has entered BEER_RETURN, with its notice, and its first line is returned (R139, R140). -/
def Plant.ReturnEntered (p : Plant) (j : Job) (q : Plant) : Prop :=
  ∃ w : Plant,
    let k : Job := { j with state := .beerReturn, step := none, base := none, timer := none, phase := none }
    w.job j.id = some k ∧ (∀ id, id ≠ j.id → w.job id = p.job id) ∧ w.cs.circuits = p.cs.circuits ∧ w.cs.programmes = p.cs.programmes
      ∧ w.raised = p.raised ++ [⟨.jobState, j.id, 5, 0, p.clock⟩] ∧ p.OnlyIn [.cs] w ∧ w.ReturnGoesOn k q

/-- The beer return of a line has ended, by return or by lock (R145, R147): the PURGE entry of a head is asked for, the line has entered a
state with a content, its job id cleared, its outlet outputs those of Table 1-6, and it is in the job no more; its flow request is off, and
PE has released its taps (R65). In BEER_RETURN the next line's return starts, or the job completes (R148); in a pause the job waits with it
until the resume (DEDUCED, log 35). -/
def Plant.LineDone (p : Plant) (j : Job) (l : Nat) (head : Option Nat) (st : LineState) (c : Content) (q : Plant) : Prop :=
  ∃ w : Plant,
    let k : Job := { j with
      returnLine := none, base := none, kept := none, remaining := j.remaining.filter (· ≠ l)
      timer := if j.state = .paused then j.timer else none }
    (w.job j.id = some k ∧ (∀ id, id ≠ j.id → w.job id = p.job id)
        ∧ w.cs.circuits = p.cs.circuits ∧ w.cs.programmes = p.cs.programmes)
      ∧ w.au = (p.purge j l head).au
      ∧ (∀ x, p.line l = some x → x.state = .cleaning →
          ∃ y, w.LineNoted l y ∧ y.state = st ∧ y.content = c ∧ y.job = none ∧ y.chain = x.chain)
      ∧ (∀ m, m ≠ l → w.line m = p.line m)
      ∧ (∃ n, w.raised = p.raised ++ n) ∧ p.OnlyIn [.lm, .pe, .cs, .au] w
      ∧ (j.state = .beerReturn → w.ReturnGoesOn k q) ∧ (j.state ≠ .beerReturn → q = w)
      ∧ (l < 48 → q.flow l = false)
      ∧ (∀ i, i < 96 → (p.tap i).line = some l → (p.tap i).cleaning = true →
          if (p.tap i).capImage = some true then (q.tap i).cleaning = true ∧ (q.tap i).released = true else (q.tap i).cleaning = false)

/-- What a cap event to ABSENT does to one job whose cap set holds the tap (R144, R151): a RUNNING job, and one in BEER_RETURN whose line
is still in it, pauses; a FLUSHING one fails its flush; any other goes on. -/
def Plant.CapJudged (p : Plant) (i : Nat) (j : Job) (q : Plant) : Prop :=
  let inJob : Bool := (p.tap i).line.any fun l => j.remaining.contains l
  ((j.state = .running ∨ (j.state = .beerReturn ∧ inJob = true)) →
      (∃ k, q.job j.id = some k ∧ k.state = .paused ∧ k.pausedFrom = some j.state ∧ k.timer = some (.pause, p.now + 300000)
          ∧ k.kept = j.timer.map (fun t => (t.1, t.2 - p.now)) ∧ k.phase = none
          ∧ k.keptPhase = j.phase.map (fun t => (t.1, t.2 - p.now)) ∧ k.step = j.step ∧ k.base = j.base)
      ∧ (∀ c, j.circuit = some c → c < 2 → (q.circuit c).out = { (p.circuit c).out with pump := false })
      ∧ (∀ l, l < 48 → l ∈ j.lines → q.flow l = false)
      ∧ ⟨.jobState, j.id, 4, i, p.clock⟩ ∈ q.raised ∧ p.OnlyIn [.pe, .cs] q)
    ∧ (j.state = .flushing → p.JobEnded j j.abortCause .failed (some .cap) Line.unproved p q)
    ∧ ((j.state ≠ .running ∧ j.state ≠ .beerReturn ∧ j.state ≠ .flushing) ∨ (j.state = .beerReturn ∧ inJob = false) → q = p)

/-- A stop onset has been taken with a state and a source (R181, R63, R20, R102, R152): MSC's fields and the STOP_STATE notice, the STOP
hold of every mapped tap, the end cause STOP of every POURING pour, every changeover attempt's line DRY, its outlet closed where the
position tried was its head (R10), with its LINE_STATE notice, CS's queue hold, and CLOSE_ALL due. In LIVE the STOP entry is the first entry
written; the CHANGEOVER entries of the attempts follow, in ascending line number (DESIGN CHOICE, log 89), and before the CLEAN_RUN entries
of CS (DESIGN CHOICE, log 93). CS, with the other blocks told before it, ends every job that holds a circuit, oldest first (log 86): `w k`
is the plant after `k` of them. A job in FLUSHING fails its flush (R151), any other is aborted with cause STOP. None of them is left, and
the jobs that hold no circuit stay in the queue. -/
def Plant.StopTaken (p : Plant) (st : StopState) (source : StopSource) (q : Plant) : Prop :=
  (q.msc.stop = st ∧ q.msc.source = some source ∧ q.msc.stopActive = true ∧ q.msc.lastOnset = some p.clock
      ∧ q.msc.mode = p.msc.mode ∧ q.msc.partClock = p.msc.partClock)
    ∧ q.sbc = { p.sbc with closeAllDue := true } ∧ q.cs.hold = true
    ∧ (∀ i < 96, (p.tap i).line ≠ none → (q.tap i).holds.stop = true
        ∧ ((p.tap i).state = .pouring → ∀ u, (p.tap i).pour = some u → ∃ v, (q.tap i).pour = some v ∧ v.cause = some .stop))
    ∧ ⟨.stopState, 0, st.num, source.num, p.clock⟩ ∈ q.raised
    ∧ (∀ l x c, p.line l = some x → x.state = .changeover → x.change = some c →
        (∃ y, q.line l = some y ∧ y.state = .dry ∧ y.content = .gas ∧ y.change = none
          ∧ (x.chain.head? = some c.position → y.outlet = ⟨none, .closed, false⟩))
        ∧ ⟨.lineState, l, 3, 1, p.clock⟩ ∈ q.raised ∧ ⟨.changeoverResult, l, 3, c.position, p.clock⟩ ∈ q.raised)
    ∧ (p.live = true → p.room = true → ∃ e rest, q.au.journal = p.au.journal ++ e :: rest ∧ e.body = .stop true source)
    ∧ q.tkm = p.tkm
    ∧ ∃ w : Nat → Plant,
        let jobs := p.cs.jobs.filter fun j => j.circuit.isSome
        ((w 0).cs = { p.cs with hold := true } ∧ (w 0).msc = q.msc ∧ (w 0).sbc = p.sbc ∧ (w 0).cc = p.cc ∧ (w 0).tkm = p.tkm)
        ∧ (w 0).au =
            ((p.interruptions fun _ => true).foldl Plant.record (if p.live then p.record (.stop true source) else p)).au
        ∧ q = { w jobs.length with sbc := q.sbc }
        ∧ (∀ k j, jobs[k]? = some j →
            ((w k).job j.id = none → w (k + 1) = w k)
            ∧ ∀ x, (w k).job j.id = some x →
              (x.state = .flushing → (w k).JobEnded x x.abortCause .failed (some .stop) Line.unproved (w k) (w (k + 1)))
              ∧ (x.state ≠ .flushing → (w k).JobAborted j.id .stop (w (k + 1))))
        ∧ (st ≠ .clear → q.cs.jobs = p.cs.jobs.filter fun x => decide (∀ j ∈ jobs, x.id ≠ j.id))

/-- CS has nothing left to judge (R135, R137, R138, R144; log 10). -/
abbrev Plant.Settled (p : Plant) : Prop := p.csNext = none

end Sys2Proof.Machine
end

