-- ==== Sys2Proof/Certificates/Slice0/Obligations.lean ====
section
/-!
DEFINITION. The statements. Those about one command give the state it leads to, as an equation: whatever the equation does not
name is as it was. `s.checked k h checks t` is the answer by the first check that fails, else `t`.
-/

open Sys2Proof Sys2Proof.Machine

/-! ### The machine -/

/-- A step takes the command at the front of the queue, with the queue's rest behind it. -/
def Obligations.StepTakesTheFrontCommand : Prop :=
  ∀ (c : Instr) (rest : List Instr) (s : State), s.pending = c :: rest → step s = exec c { s with pending := rest }

/-- On an empty queue one millisecond passes: the time base moves by 1, the timer commands whose time has come join the queue, and
nothing else changes. Plant.EndsAt gives the due time of each timer command; a PULSE phase that ends together with the step's duration has
none (DEDUCED, log 53). The part clock's own command moves it by 1, from 4 294 967 295 to 0 (R173). That a step idles so, and the order
of the commands, are the model's choice (DESIGN CHOICE, log 1), and so is that the clock's command stands at the end of its 1000 ms,
to which the time base is brought (DESIGN CHOICE, log 2). -/
def Obligations.TimePassesWhileTheQueueIsEmpty : Prop :=
  (∀ (s : State), s.pending = [] →
     let p : Plant := { s.plant with msc := { s.plant.msc with timeBase := s.plant.msc.timeBase + 1 } }
     step s = .next { s with plant := p, pending := p.dueCommands }
       ∧ ∀ c : Instr, c ∈ p.dueCommands ↔ ∃ d, s.plant.EndsAt d c ∧ d ≤ s.plant.msc.timeBase + 1)
  ∧ (∀ s : State,
       let m := s.plant.msc
       exec .partClockAdvance s = .next (s.arrived { s.plant with msc := { m with
         partClock := m.partClock + 1, clockSince := m.clockSince + 1000, timeBase := max m.timeBase (m.clockSince + 1000) } }))

/-- What device reset leaves, with CELLAR_STOP_N high: the values that the rules give, every tap, cooling stage, trunk and circuit entry
whole. That the pin is HIGH in State.reset is the model's choice (DESIGN CHOICE, log 4). -/
def Obligations.ResetLeavesTheValuesOfTheRules : Prop :=
  let s := State.reset
  let p := s.plant
  s.pending = []
    ∧ (s.hl.rate = .r115200 ∧ s.hl.receiver = .hunting ∧ s.hl.counts = LinkCounts.zero ∧ s.hl.replies = [] ∧ s.hl.notices = []
        ∧ s.hl.overflow = false ∧ s.hl.attn = false ∧ s.hl.cursor = none)
    ∧ (p.msc.mode = .config ∧ p.msc.stop = .clear ∧ p.msc.stopActive = false ∧ p.msc.partClock = 0)
    ∧ (p.sbc.round = 0 ∧ ∀ a, (p.station a).kind = none ∧ (p.station a).trace = false)
    ∧ ((∀ i, p.product i = none)
        ∧ (∀ i, p.source i =
            { bound := none, state := .vacant, keg := none, line := none, closePending := false, removed := false, pours := 0 })
        ∧ ∀ l, p.line l = none)
    ∧ ((∀ i, p.ticket i = none) ∧ (∀ a, p.queue a = []) ∧ p.tkm.window = 30)
    ∧ (∀ i, p.tap i =
        { station := none, line := none, mode := .ticket, state := .unassigned, holds := ⟨false, false, false, false, false⟩, off := false,
          factor := 10000, limit := 20, handle := none, capImage := none, valveImage := none, count := none, lamp := .off,
          calibration := none, creep := 0, residue := 0, staged := ⟨none, none, none⟩, pour := none, cleaning := false,
          released := false, valve := .closed, noTicket := none, late := none })
    ∧ (p.cc.state = .off ∧ p.cc.setpoint = -15 ∧ p.cc.effective = -15 ∧ p.cc.threshold = 30 ∧ p.cc.offset = 10
        ∧ p.cc.programmed = none ∧ p.cc.lastBath = none ∧ p.cc.probeFault = false ∧ p.cc.cause = none ∧ p.cc.surge = false
        ∧ p.cc.gate = false ∧ p.cc.joinedOnce = false ∧ p.cc.remote = false ∧ p.cc.order = [0, 1, 2] ∧ p.cc.window = []
        ∧ (p.cc.degradeEnd = none ∧ p.cc.hintEnd = none ∧ p.cc.lastStart = none ∧ p.cc.graceEnd = none)
        ∧ ∀ i, p.stage i = { command := false, lastChange := none, running := none, tripped := false }
            ∧ p.trunk i =
              { inUse := false, warm := 40, hot := 70, temperature := none, state := .unused, pump := false, feedback := none,
                pumpFault := false, pumpEnd := none, circuit := none })
    ∧ ((∀ i, p.programme i = none) ∧ p.cs.jobs = [] ∧ p.cs.nextJob = 1 ∧ p.cs.hold = false ∧ p.cs.tanks = none
        ∧ ∀ c, p.circuit c =
            { state := .free, job := none, out := { pump := false, medium := none, drain := true, threshold := 100, trunk := none },
              above := none, meter := none, running := none, faultCause := none })
    ∧ (p.au.journal = [] ∧ p.au.reserved = 0 ∧ p.au.nextSeq = 1 ∧ p.au.gap = 0 ∧ p.au.refused = false ∧ p.au.mark = 1536
        ∧ p.au.armed = true ∧ p.au.cursorSeq = 1 ∧ p.au.cursorOffset = 0 ∧ p.au.period = 0 ∧ p.au.openedAt = 0
        ∧ (p.au.issued = 0 ∧ p.au.poured = 0 ∧ p.au.shorted = 0 ∧ p.au.voided = 0)
        ∧ ∀ i, p.totals i = (Totals.zero, Totals.zero) ∧ p.tapTotals i = (0, 0))

/-- The invariants hold right after device reset. -/
def Obligations.InvariantsHoldAtReset : Prop :=
  HlInv State.reset ∧ StopInv State.reset ∧ JournalInv State.reset ∧ TicketInv State.reset ∧ LineInv State.reset
    ∧ CoolingInv State.reset

/-- Every step keeps the Host Link's laws. -/
def Obligations.EveryStepKeepsTheHostLinkLaws : Prop := ∀ s t : State, HlInv s → step s = .next t → HlInv t

/-- Every step keeps the laws of the cellar stop. -/
def Obligations.EveryStepKeepsTheStopLaws : Prop := ∀ s t : State, StopInv s → step s = .next t → StopInv t

/-- Every step keeps the law of reservations (R154). -/
def Obligations.EveryStepKeepsTheLawOfReservations : Prop := ∀ s t : State, JournalInv s → step s = .next t → JournalInv t

/-- Every step keeps the law of ticket accounting (R28). -/
def Obligations.EveryStepKeepsTheLawOfTicketAccounting : Prop := ∀ s t : State, TicketInv s → step s = .next t → TicketInv t

/-- Every step keeps the law on line content (R7), and in CONFIG that every line is OUT_OF_SERVICE (R8) and no cleaning job exists, as
REQUEST_CLEAN is taken in LIVE alone (R134, Table 9-1). -/
def Obligations.EveryStepKeepsTheLawOnLineContent : Prop := ∀ s t : State, LineInv s → step s = .next t → LineInv t

/-- Every step keeps the cooling controller's derived values true to the rules that derive them (R107, R109, R115, R118, R120,
R127). -/
def Obligations.EveryStepKeepsTheCoolingLaws : Prop := ∀ s t : State, CoolingInv s → step s = .next t → CoolingInv t

/-! ### The Host Link -/

/-- The checks before the owner's own (R188): a kind that names no request, a body that does not fit its kind, a kind that is not
taken in the present mode. Each is refused, and nothing but HL's counts and reply queue changes. The bytes of a request (R194, Table
11-3): the body of every well-formed request reads as that request, with every operand at every value; a body of whatever bytes reads as
a well-formed command with its tag, which for a kind of Table 10-6 is the request of that kind; it carries the length received when that
misfits the kind, and else lays out as the same bytes again. The numbers of flags and of on and off, widths that Table 11-1 does not
give, that CONTINUE of READ_JOURNAL, whose body has 8 bytes, stands as the seq with all bits one, and that the spaces padding a name are
no part of it are the model's choice (DESIGN CHOICE, logs 14, 61, 70, 82, 83, 84). -/
def Obligations.RequestsAreJudgedBeforeTheirOwner : Prop :=
  (∀ s : State, LinkReady s → Quiet s →
    (∀ (h : ReqHdr) (kind : Byte), kind.toNat = 0 ∨ 44 < kind.toNat →
      exec (.unknownKind h kind) s = .next (s.declined ⟨kind.toNat, 0, true, true⟩ h .unknownKind 0 []))
    ∧ ∀ (c : Instr) (k : RequestKind) (h : ReqHdr), requestOf c = some (k, h) →
      (∀ n, h.length = some n → n ≠ k.layout → exec c s = .next (s.declined k h .badLength k.layout []))
      ∧ (h.length = none → k.takenIn s.plant.live = false →
          exec c s = .next (s.declined k h (if s.plant.live then .notConfig else .notLive) 0 [])))
  ∧ (∀ (c : Instr) (k : RequestKind) (h : ReqHdr), requestOf c = some (k, h) → WellFormed.instr c = true → h.length = none →
      readRequest h.noisy (requestBody c) = c ∧ (requestBody c).length ≤ 250)
  ∧ ∀ (noisy : Nat) (kind tag : Byte) (fields : List Byte), fields.length ≤ 248 →
      let body := kind :: tag :: fields
      let c := readRequest noisy body
      (noisy ≤ body.length + 3 → WellFormed.instr c = true)
      ∧ (kind.toNat = 0 ∨ 44 < kind.toNat → c = .unknownKind ⟨tag, noisy, none⟩ kind)
      ∧ (1 ≤ kind.toNat → kind.toNat ≤ 44 → ∃ k h, requestOf c = some (k, h) ∧ k.num = kind.toNat
          ∧ (let fits : Prop :=
                (k.num = 27 → ∃ n, fields[1]? = some n ∧ fields.length = 2 + (if n.toNat = 255 then 0 else 13 * n.toNat))
                  ∧ (k.num = 28 → ∃ n, fields[1]? = some n ∧ fields.length = 3 + n.toNat)
                  ∧ (k.num ≠ 27 → k.num ≠ 28 → body.length = k.layout)
             (fits → h = ⟨tag, noisy, none⟩ ∧ requestBody c = body) ∧ (¬ fits → h = ⟨tag, noisy, some body.length⟩)))

/-- A frame accepted while the reply queue holds 2 replies gets no reply and changes nothing but HL's counts: it is counted as accepted,
with its noisy bytes, and as an overrun (R185, R187). So is a frame whose kind names no request. A gap error discards the frame held in part
and is counted; while the receiver hunts it does not arise and changes nothing (DESIGN CHOICE, log 3). A bit is what two or more of its
three samples agree on, a byte is noisy when the samples of any of its bits disagree, and a stop bit taken as 0 is a framing error (R184). A
discarded frame's bytes go one by one through the receiver's phases (R185); a framing error counts as one whatever the byte, the length byte
too (DEDUCED, log 49). A byte that completes a frame with a good CRC is a request of its own, and so counts nothing here (DESIGN CHOICE, log
12): the bytes of a frame without a framing error, taken while the receiver hunts, come to the request that its body reads as, with the
noisy bytes from the length byte on (R184). That a character is taken whatever value its start bit is taken as is the model's choice (DESIGN
CHOICE, log 88). -/
def Obligations.FaultyAndUntakenFramesAreCounted : Prop :=
  (∀ s : State, s.hl.rxdLow = false →
     (2 ≤ s.hl.replies.length →
       (∀ (c : Instr) (k : RequestKind) (h : ReqHdr), requestOf c = some (k, h) ∨ c = .overrun h ∨ (∃ kind, c = .unknownKind h kind) →
         exec c s = .next { s with hl := { s.hl with
           receiver := .hunting
           counts := { s.hl.counts with
             accepted := min 65535 (s.hl.counts.accepted + 1)
             noise := min 65535 (s.hl.counts.noise + h.noisy)
             overruns := min 65535 (s.hl.counts.overruns + 1) } } }))
     ∧ (s.hl.receiver ≠ .hunting →
         exec .gapError s = .next { s with hl := { s.hl with
           receiver := .hunting
           counts := { s.hl.counts with gapErrors := min 65535 (s.hl.counts.gapErrors + 1) } } })
     ∧ (s.hl.receiver = .hunting → exec .gapError s = .next s))
  ∧ (∀ (c : RxChar),
       let two : BitSamples → Bool := fun b => decide (2 ≤ b.first.toNat + b.second.toNat + b.third.toNat)
       let split : BitSamples → Bool := fun b => !(b.first = b.second ∧ b.second = b.third)
       (∀ i, (hi : i < 8) → c.byte.value.getLsbD i = two c.data[i])
         ∧ c.byte.noisy = (split c.start || split c.stop || c.data.toList.any split) ∧ c.byte.framing = !two c.stop)
  ∧ ((∀ (characters : List RxChar) (s : State), s.hl.rxdLow = false →
       exec (.frameDiscarded characters) s = .next { s with hl := (characters.map RxChar.byte).foldl Hl.takeByte s.hl })
     ∧ ∀ (l : Hl) (b : RxByte),
       (l.receiver = .hunting →
         l.takeByte b = { l with receiver := if b.value = 0xA5#8 ∧ b.framing = false then .length else .hunting })
       ∧ (l.receiver ≠ .hunting → b.framing = true →
           l.takeByte b = { l with
             receiver := .hunting
             counts := { l.counts with framingErrors := min 65535 (l.counts.framingErrors + 1) } })
       ∧ (l.receiver = .length → b.framing = false →
           l.takeByte b =
             if 2 ≤ b.value.toNat ∧ b.value.toNat ≤ 250 then { l with receiver := .body b [] }
             else { l with
               receiver := .hunting
               counts := { l.counts with lengthErrors := min 65535 (l.counts.lengthErrors + 1) } })
       ∧ (∀ len got, l.receiver = .body len got → b.framing = false →
           l.takeByte b =
             { l with receiver := if got.length + 1 < len.value.toNat then .body len (got ++ [b]) else .crc len (got ++ [b]) none })
       ∧ (∀ len got, l.receiver = .crc len got none → b.framing = false → l.takeByte b = { l with receiver := .crc len got (some b) })
       ∧ ∀ len got low, l.receiver = .crc len got (some low) → b.framing = false →
           l.takeByte b =
             if crc16 (len.value :: got.map (·.value)) = b.value ++ low.value then { l with receiver := .hunting }
             else { l with
               receiver := .hunting
               counts := { l.counts with crcErrors := min 65535 (l.counts.crcErrors + 1) } })
  ∧ ((∀ (r : Receiver) (b : RxByte), (r.request b).isSome = true ↔ ∃ len got low, r = .crc len got (some low) ∧ b.framing = false
         ∧ crc16 (len.value :: got.map (·.value)) = b.value ++ low.value)
     ∧ ∀ (l : Hl) (first last : RxByte) (bytes : List RxByte) (body : List Byte),
         let n := BitVec.ofNat 8 body.length
         l.receiver = .hunting → 2 ≤ body.length → body.length ≤ 250 → (∀ b ∈ first :: bytes ++ [last], b.framing = false) →
         (first :: bytes ++ [last]).map (·.value) = [0xA5#8, n] ++ body ++ leBytes 2 (crc16 (n :: body)).toNat →
         ((first :: bytes).foldl Hl.takeByte l).receiver.request last
           = some (readRequest ((bytes ++ [last]).countP (·.noisy)) body))

/-- A link reset (R186), one for each time RXD is low, and RXD's return. The reply being sent stops and TXD is high. The rate, the
notice queue, ATTN and every other table are kept. While RXD is low no frame, of whatever kind, no byte and no overrun is taken, and
a second LINK_RESET does not arise and changes nothing (DESIGN CHOICE, log 3). -/
def Obligations.LinkResetLeavesOnlyWhatTheRuleKeeps : Prop :=
  ∀ s : State,
    (s.hl.rxdLow = false →
      exec .linkReset s = .next { s with
        hl := { s.hl with
          receiver := .hunting
          rxdLow := true
          counts := { s.hl.counts with breaks := min 65535 (s.hl.counts.breaks + 1) }
          replies := []
          transmitter := .idle
          cursor := none }
        plant := { s.plant with au := { s.plant.au with
          cursorSeq := (match s.plant.au.journal with | [] => s.plant.au.nextSeq | e :: _ => e.seq)
          cursorOffset := 0 } } })
    ∧ (s.hl.rxdLow = true →
        exec .linkReset s = .next s
          ∧ (∀ characters, exec (.frameDiscarded characters) s = .next s)
          ∧ (∀ h, exec (.overrun h) s = .next s) ∧ (∀ h kind, exec (.unknownKind h kind) s = .next s)
          ∧ ∀ (c : Instr) (k : RequestKind) (h : ReqHdr), requestOf c = some (k, h) → exec c s = .next s)
    ∧ exec .rxdReturnedHigh s = .next { s with hl := { s.hl with rxdLow := false } }

/-- SET_LINK and the sending of a reply (R187, R189): the reply carries the new rate, and the rate holds once that reply has been sent; a
frame held in part is then discarded, uncounted. A rate that is in force when its reply has been sent changes nothing (DEDUCED, log 32).
REPLY_SENT without a made reply at the head does not arise and changes nothing (DESIGN CHOICE, log 3). The transmitter sends the frame of
the made reply at the head of the queue (Table 11-2), each byte as a start bit, its data bits from the least significant on and a stop bit
(Table 10-1), and TXD is high while there is none (R184). A link reset that discards the reply keeps the rate. -/
def Obligations.SetLinkTakesHoldWhenItsReplyIsSent : Prop :=
  (∀ (h : ReqHdr) (n : Nat) (r : Rate) (s : State), Ready Kind.setLink h s → rateOf n = some r →
    exec (.setLink h n) s =
      .next (s.replied h ⟨replyKind 41, h.tag, true, .ok, 0, leBytes 4 n, some r⟩ s.plant))
  ∧ (∀ (h : ReqHdr) (n : Nat) (s : State), Ready Kind.setLink h s → rateOf n = none →
    exec (.setLink h n) s = .next (s.declined Kind.setLink h .badParam 1 []))
  ∧ (∀ n, (rateOf n).isSome ↔ n = 57600 ∨ n = 115200 ∨ n = 230400 ∨ n = 460800)
  ∧ (∀ s : State, (∀ r ∈ s.hl.replies.head?, r.made = false) → exec .replySent s = .next s)
  ∧ (∀ (s : State) (r : Reply) (rest : List Reply), s.hl.replies = r :: rest → r.made = true →
    let l : Hl := { s.hl with replies := rest, transmitter := transmitterOf rest }
    exec .replySent s = .next { s with hl :=
      match r.newRate with
      | none => l
      | some rate => if rate = s.hl.rate then l else { l with rate := rate, receiver := .hunting } })
  ∧ (transmitterOf [] = .idle ∧ ∀ (r : Reply) (rest : List Reply),
      transmitterOf (r :: rest) =
        if r.made then
          let body := r.kind :: r.tag :: (leBytes 1 r.result.num ++ leBytes 1 r.detail ++ r.data)
          let n := BitVec.ofNat 8 body.length
          .sending ([0xA5#8, n] ++ body ++ leBytes 2 (crc16 (n :: body)).toNat)
        else .idle)
  ∧ (∀ frame : List Byte, (Transmitter.sending frame).bits =
      frame.flatMap fun b => false :: (List.range 8).map (fun k => b.getLsbD k) ++ [true])
  ∧ ∀ s : State, s.hl.rxdLow = false → ∃ t, exec .linkReset s = .next t ∧ t.hl.replies = [] ∧ t.hl.rate = s.hl.rate

/-- IDENTIFY and STATUS (R190): always OK, carrying what the rule lists, and changing nothing but HL's counts and reply queue. The
widths of the data are those of Table 11-1, and of log 14 where the table has none. -/
def Obligations.IdentifyAndStatusReport : Prop :=
  ∀ (h : ReqHdr) (s : State),
    (Ready Kind.identify h s →
      exec (.identify h) s = .next (s.answered Kind.identify h
        (partName ++ [1#8]
          ++ ([96, 30, 48, 64, 32, 8, 3, 2, 6, 12, 8, 160, 8, 2048, 32, 64].flatMap (leBytes 2))) s.plant))
    ∧ (Ready Kind.status h s →
      exec (.status h) s = .next (s.answered Kind.status h
        (leBytes 1 s.plant.msc.mode.num ++ leBytes 1 s.plant.msc.stop.num ++ leBytes 4 s.plant.msc.partClock.toNat
          ++ leBytes 2 s.plant.fill ++ leBytes 2 s.plant.au.reserved ++ leBytes 2 s.hl.notices.length
          ++ leBytes 1 s.hl.overflow.toNat ++ leBytes 2 (s.plant.stationsIn .absent) ++ leBytes 2 (s.plant.stationsIn .joining)
          ++ leBytes 2 (s.plant.stationsIn .active) ++ leBytes 2 (s.plant.stationsIn .lost)
          ++ leBytes 2 (s.plant.stationsIn .mismatch) ++ leBytes 1 s.plant.cc.state.num) s.plant))

/-- READ_TABLE and READ_MORE (R191): entries from the cursor's index on, with step IN_USE those in use by Table 10-4, as many as the count
allows and as fit whole; the cursor then stands at the next of them with the count still to return, or is absent when the count is met or
the table's end is passed (State.tableReply spells it). An entry carries the fields of its owner's table, in its order and at the widths of
Table 11-1, values numbered by the tables that define them (R194; State.entrySpelled): the widths and layouts that Table 11-1 leaves open
are those of logs 14, 52, 54, 61, 62, 77, 79 and 83, two-valued fields those of log 34, the poll class that of log 65 and a field absent
against the rules that of log 24 (DESIGN CHOICE), times on the part clock those of log 28 and entries not in use those of log 40 (DEDUCED).
Nothing but HL changes, and the data fits a reply. The LINK table is read after the frame has been counted. That the station tables go from
index 0 and that 243 bytes are left for entries is log 14 (DESIGN CHOICE), and the detail of READ_MORE's refusal is a free value (DESIGN
CHOICE, log 7). -/
def Obligations.TableReadingMovesTheCursor : Prop :=
  (∀ (s : State) (c : TableCursor), (s.tableReply c).2.length ≤ 246)
  ∧ ([TableName.products, .sources, .lines, .tickets, .taps, .stations, .stationInputs, .stationOutputs, .cooling, .stages, .trunks,
        .programmes, .jobs, .circuits, .journalState, .accounts, .productTotals, .tapTotals, .mode, .link].map
      (fun t => (tableNum t, tableSize t))
      = (List.range 20).zip [32, 64, 48, 160, 96, 30, 30, 30, 1, 3, 8, 6, 8, 2, 1, 1, 32, 96, 1, 1])
  ∧ (∀ (p : Plant) (t : TableName) (i : Nat), p.inUse t i = match t with
      | .products | .productTotals => decide (p.product i ≠ none)
      | .sources => decide ((p.source i).state ≠ .vacant)
      | .lines => decide (p.line i ≠ none)
      | .tickets => decide (p.ticket i ≠ none)
      | .taps => decide ((p.tap i).station ≠ none)
      | .stations | .stationInputs | .stationOutputs => decide ((p.station (i + 1)).kind ≠ none)
      | .trunks => (p.trunk i).inUse
      | .programmes => decide (p.programme i ≠ none)
      | .jobs => decide (i < p.cs.jobs.length)
      | .tapTotals => decide ((p.tap i).line ≠ none)
      | .cooling | .stages | .circuits | .journalState | .accounts | .mode | .link => true)
  ∧ (∀ (s : State) (t : TableName) (i : Nat), s.tableFields t i = s.entrySpelled t i)
  ∧ ([SourceState.vacant, .loaded, .onLine, .spent, .fault].map (·.num) = List.range 5
    ∧ [LineState.serving, .draining, .changeover, .dry, .cleaning, .locked, .outOfService].map (·.num) = List.range 7
    ∧ [Content.beer, .gas, .water, .cleaner, .unproven].map contentNum = List.range 5
    ∧ (∀ was tap, [TicketState.queued, .claimed was tap, .part].map (·.num) = [1, 2, 3])
    ∧ [TapState.unassigned, .cleaning, .off, .offline, .pouring, .ending, .held, .idle].map (·.num) = List.range 8
    ∧ (∀ a b c d e : Bool, Holds.num ⟨a, b, c, d, e⟩ = a.toNat + 2 * b.toNat + 4 * c.toNat + 8 * d.toNat + 16 * e.toNat)
    ∧ [TapMode.ticket, .free].map tapModeNum = List.range 2
    ∧ [Lamp.off, .ready, .pouring, .held, .noTicket, .cap].map (·.num) = List.range 6
    ∧ [PourKind.normal, .topup, .calibration].map (·.num) = List.range 3
    ∧ [StationType.tap, .cellar, .cooling, .cleaning].map stationTypeNum = List.range 4
    ∧ [StationState.absent, .joining, .active, .lost, .mismatch].map (·.num) = List.range 5
    ∧ [CoolingState.off, .running, .degraded, .unsupervised].map (·.num) = List.range 4
    ∧ [DegradeCause.bathHigh, .allTripped].map (·.num) = List.range 2
    ∧ [TrunkState.unused, .normal, .warm, .hot, .probeFault, .unknown].map (·.num) = List.range 6
    ∧ [Medium.water, .caustic, .acid].map mediumNum = List.range 3
    ∧ [CircuitState.free, .busy, .fault].map (·.num) = List.range 3
    ∧ [FaultCause.stop, .stationLost, .tankLow, .cap, .timeout].map (·.num) = List.range 5
    ∧ [JobState.queued, .draining, .capCheck, .running, .paused, .beerReturn, .flushing, .complete, .aborted].map (·.num) = List.range 9
    ∧ [AbortCause.host, .stop, .stationLost, .tankLow, .capTimeout, .pauseTimeout, .proofFailed, .pushTimeout].map (·.num) = List.range 8
    ∧ [Mode.config, .live].map (·.num) = List.range 2 ∧ [StopState.clear, .active, .releasable].map (·.num) = List.range 3
    ∧ [StopSource.pin, .request].map (·.num) = List.range 2)
  ∧ (∀ (h : ReqHdr) (table : EnumField TableName) (first count : Nat) (step : EnumField ReadStep) (s : State),
      Ready Kind.readTable h s →
      let reply := State.tableReply { s with hl := s.hl.accepted h } ⟨enumOr .products table, first, count, enumOr .every step⟩
      exec (.readTable h table first count step) s =
        .next (s.checked Kind.readTable h
          [(wrongEnum table, .badParam, 1), (tableSize (enumOr .products table) ≤ first, .badParam, 2),
           (count < 1 ∨ 255 < count, .badParam, 3), (wrongEnum step, .badParam, 4)]
          (State.answered { s with hl := { s.hl with cursor := reply.1 } } Kind.readTable h reply.2 s.plant)))
  ∧ (∀ (h : ReqHdr) (c : TableCursor) (s : State), Ready Kind.readMore h s → s.hl.cursor = some c →
      let reply := State.tableReply { s with hl := s.hl.accepted h } c
      exec (.readMore h) s =
        .next (State.answered { s with hl := { s.hl with cursor := reply.1 } } Kind.readMore h reply.2 s.plant))
  ∧ ∀ (h : ReqHdr) (s : State), Ready Kind.readMore h s → s.hl.cursor = none →
      exec (.readMore h) s = .next (s.declined Kind.readMore h .refusedState Config.noFieldDetail [])

/-- FETCH_NOTICES (R193): up to the count leave the head of the queue, oldest first, into the reply, which also carries the
overflow flag as it stood, the number of notices left, in 2 bytes (DESIGN CHOICE, log 14), the notice count and the notices; the flag
is cleared, and ATTN is low when the queue is empty. A count outside 1 to 8 is refused with BAD_PARAM. -/
def Obligations.FetchNoticesEmptiesTheQueueFromItsHead : Prop :=
  ∀ (h : ReqHdr) (count : Nat) (s : State), Ready Kind.fetchNotices h s →
    exec (.fetchNotices h count) s =
      .next (s.checked Kind.fetchNotices h [(count < 1 ∨ 8 < count, .badParam, 1)]
        (State.answered
          { s with hl := { s.hl with
              notices := s.hl.notices.drop count
              overflow := false
              attn := decide (s.hl.notices.drop count ≠ []) } }
          Kind.fetchNotices h
          (leBytes 1 s.hl.overflow.toNat ++ leBytes 2 (s.hl.notices.drop count).length
            ++ leBytes 1 (s.hl.notices.take count).length ++ (s.hl.notices.take count).flatMap Notice.bytes)
          s.plant))

/-! ### The cellar (chapter 1) -/

/-- DEFINE_PRODUCT (R2): the entry is written whole, an absent tolerance as 15 ml, and nothing else changes; or the request is
refused by the first check that fails. -/
def Obligations.ProductDefinitionIsWrittenOrRefused : Prop :=
  ∀ (h : ReqHdr) (index code : Nat) (name : List Byte) (tolerance : Option Nat) (threshold : Nat) (s : State),
    Ready Kind.defineProduct h s →
    let p := s.plant
    let entry : Product := ⟨code, name, tolerance.getD 15, threshold⟩
    let q := p.setProduct index (some entry)
    exec (.defineProduct h index code name tolerance threshold) s =
        .next (s.checked Kind.defineProduct h
          [(31 < index, .badParam, 1), (code < 1 ∨ 65534 < code, .badParam, 2), (12 < name.length, .badParam, 3),
           (tolerance.any fun t => t < 5 ∨ 50 < t, .badParam, 4), (threshold < 100 ∨ 100000 < threshold, .badParam, 5),
           ((List.range 32).any fun i => i ≠ index ∧ p.code i = some code, .inUse, 2),
           (p.live
              && ((List.range 48).any (fun l => (p.line l).any fun x => x.product = index)
                || (List.range 64).any fun i => (p.source i).keg.any fun k => k.product = index),
             .inUse, 1)]
          (s.answered Kind.defineProduct h [] q))
      ∧ (index < 32 → ∀ i, q.product i = if i = index then some entry else p.product i)
      ∧ p.OnlyIn [.lm] q ∧ q.lm.sources = p.lm.sources ∧ q.lm.lines = p.lm.lines

/-- DEFINE_LINE (R8): the entry takes every field of the request; a line already defined keeps its state, chain, job and changeover
record, a new one is OUT_OF_SERVICE with an empty chain. The unsupervised flag is set unless its cellar station is ACTIVE, and the
outlet outputs are those of Table 1-6 (R10). PE's view follows; no notice is raised but TAP_STATE of the line's taps, so no LINE_STATE
(DESIGN CHOICE, log 16). Where another line holds the station and line index, the detail of IN_USE is the later of the two fields, 5
(DEDUCED, log 6). -/
def Obligations.LineDefinitionIsWrittenOrRefused : Prop :=
  ∀ (h : ReqHdr) (line product trunk station index volume : Nat) (auto : EnumField Bool) (content : EnumField Content)
    (oos : EnumField Bool) (s : State), Ready Kind.defineLine h s →
    let p := s.plant
    ∃ q : Plant,
      exec (.defineLine h line product trunk station index volume auto content oos) s =
        .next (s.checked Kind.defineLine h
          [(47 < line, .badParam, 1), (31 < product, .badParam, 2), (7 < trunk, .badParam, 3),
           (station < 1 ∨ 30 < station, .badParam, 4), (11 < index, .badParam, 5), (volume < 200 ∨ 20000 < volume, .badParam, 6),
           (wrongEnum auto, .badParam, 7),
           (!(content = .val .water ∨ content = .val .unproven ∨ (content = .val .beer ∧ p.live = false)), .badParam, 8),
           (wrongEnum oos, .badParam, 9),
           ((List.range 48).any fun l => l ≠ line ∧ (p.line l).any fun x => x.station = station ∧ x.index = index, .inUse, 5),
           ((p.line line).any fun x => x.chain ≠ [] ∧ x.product ≠ product, .inUse, 2),
           ((p.line line).any fun x => x.chain ≠ [] ∧ x.station ≠ station, .inUse, 4),
           ((p.line line).any fun x => x.job.isSome, .inUse, 1),
           (p.live && (p.line line).any fun x => x.state ≠ .outOfService, .refusedState, 1),
           (p.live && (p.product product).isNone, .notFound, 2), (p.live && !(p.trunk trunk).inUse, .notFound, 3),
           (p.live && !(p.station station).kind = some .cellar, .notFound, 4),
           (12 ≤ (List.range 48).countP fun l => l ≠ line ∧ (p.line l).any fun x => x.trunk = trunk, .full, 3)]
          (s.answered Kind.defineLine h [] q))
      ∧ (line < 48 → ∃ x, q.line line = some x
          ∧ (x.product = product ∧ x.trunk = trunk ∧ x.station = station ∧ x.index = index ∧ x.volume = volume)
          ∧ (∀ b, auto = .val b → x.auto = b) ∧ (∀ c, content = .val c → x.content = c) ∧ (∀ b, oos = .val b → x.declaredOut = b)
          ∧ x.unsupervised = !((p.station station).kind = some .cellar && p.active station)
          ∧ (p.line line = none → x.state = .outOfService ∧ x.chain = [] ∧ x.job = none ∧ x.change = none)
          ∧ (∀ y, p.line line = some y → x.state = y.state ∧ x.chain = y.chain ∧ x.job = y.job ∧ x.change = y.change)
          ∧ q.lineView line = some ⟨x.state, x.trunk, x.unsupervised⟩
          ∧ x.outlet = p.outletOf x)
      ∧ (∀ n ∈ q.raised, n.kind = .tapState ∧ (p.tap n.subject).line = some line)
      ∧ (∀ l, l ≠ line → q.line l = p.line l ∧ q.lineView l = p.lineView l)
      ∧ p.OnlyIn [.lm, .pe] q ∧ q.lm.products = p.lm.products ∧ q.lm.sources = p.lm.sources

/-- LOAD_SOURCE and UNLOAD_SOURCE (R4, R5, R6): a keg on a VACANT coupler that shows one becomes LOADED. A LOADED position that is unloaded
leaves its chain, and a keg that was drawn from writes its KEG_CLOSE entry with its yield, which raises YIELD_DRIFT outside its bounds
(R170); a SPENT or FAULT position is left. Either way it is VACANT, with its notice, which carries 255 as the line also for a position that
stood in a chain, since it has left the chain by then (DESIGN CHOICE, log 18). -/
def Obligations.KegsAreLoadedAndUnloaded : Prop :=
  (∀ (h : ReqHdr) (position product nominal : Nat) (fillRef : Word32) (s : State), Ready Kind.loadSource h s →
     let p := s.plant
     let x := p.source position
     ∃ q : Plant,
       exec (.loadSource h position product nominal fillRef) s =
         .next (s.checked Kind.loadSource h
           [(x.bound = none, .notFound, 1), ((p.product product).isNone, .notFound, 2),
            (nominal < 1000 ∨ 1000000 < nominal, .badParam, 3), (x.state ≠ .vacant, .refusedState, 1),
            (!(x.bound.any fun b => p.active b.1 && (match (p.station b.1).inputs with
                | some (.cellar kegs _) => kegs.toList.getD b.2 false
                | _ => false)), .refusedState, 1)]
           (s.answered Kind.loadSource h [] q))
       ∧ (position < 64 → ∀ i, q.source i =
           if i = position then
             { x with state := .loaded, keg := some ⟨product, nominal, 0, fillRef, p.clock, p.now⟩, line := none, closePending := false,
                      removed := false }
           else p.source i)
       ∧ (position < 64 → q.raised = [⟨.sourceState, position, 1, 255, p.clock⟩])
       ∧ p.OnlyIn [.lm] q ∧ q.lm.products = p.lm.products ∧ q.lm.lines = p.lm.lines)
  ∧ (∀ (h : ReqHdr) (position : Nat) (s : State), Ready Kind.unloadSource h s →
       let p := s.plant
       let x := p.source position
       ∃ q : Plant,
         exec (.unloadSource h position) s =
           .next (s.checked Kind.unloadSource h
             [(x.bound = none, .notFound, 1), (x.state = .vacant, .refusedState, 1), (x.state = .onLine, .inUse, 1),
              ((x.state = .spent ∨ x.state = .fault) ∧ x.closePending, .inUse, 1)]
             (s.answered Kind.unloadSource h [] q))
         ∧ (position < 64 → ∀ i, q.source i =
             if i = position then { x with state := .vacant, keg := none, line := none, closePending := false, removed := false }
             else p.source i)
         ∧ (x.state ≠ .loaded → q.lm.lines = p.lm.lines ∧ q.au = p.au)
         ∧ (x.state = .loaded →
             (∀ l, q.line l = (p.line l).map fun y => { y with chain := y.chain.filter (· ≠ position) })
             ∧ ∃ w : Plant, p.KegClosed position (x.keg.filter fun k => 0 < k.dispensed) w ∧ q.au = w.au
                 ∧ (position < 64 → q.raised = w.raised ++ [⟨.sourceState, position, 0, 255, p.clock⟩]))
         ∧ (position < 64 → x.state ≠ .loaded → q.raised = [⟨.sourceState, position, 0, 255, p.clock⟩])
         ∧ p.OnlyIn [.lm, .au] q ∧ q.lm.products = p.lm.products)

/-- APPEND_CHAIN and REMOVE_FROM_CHAIN (R11, R12): a LOADED position joins the tail of the line's chain and is owned by the line; a
position taken out leaves the chain, the positions behind it move up, and it is owned by no line. -/
def Obligations.ChainsAreEditedAsTheRulesSay : Prop :=
  ∀ (h : ReqHdr) (line position : Nat) (s : State),
    let p := s.plant
    let x := p.source position
    (Ready Kind.appendChain h s → ∃ q : Plant,
      exec (.appendChain h line position) s =
        .next (s.checked Kind.appendChain h
          [((p.line line).isNone, .notFound, 1), (x.bound = none, .notFound, 2), (x.state ≠ .loaded, .refusedState, 2),
           (!((p.line line).any fun y => (x.bound.any fun b => b.1 = y.station) && (x.keg.any fun k => k.product = y.product)),
             .badParam, 2),
           (x.line.isSome, .inUse, 2), ((p.line line).any fun y => 4 ≤ y.chain.length, .full, 1)]
          (s.answered Kind.appendChain h [] q))
      ∧ (line < 48 → ∀ l, q.line l =
          if l = line then (p.line line).map fun y => { y with chain := y.chain ++ [position] } else p.line l)
      ∧ (position < 64 → ∀ i, q.source i = if i = position then { x with line := some line } else p.source i)
      ∧ (position < 64 → q.raised = [⟨.sourceState, position, x.state.num, line, p.clock⟩])
      ∧ p.OnlyIn [.lm] q ∧ q.lm.products = p.lm.products)
    ∧ (Ready Kind.removeFromChain h s → ∃ q : Plant,
      exec (.removeFromChain h line position) s =
        .next (s.checked Kind.removeFromChain h
          [((p.line line).isNone, .notFound, 1), (!((p.line line).any fun y => y.chain.contains position), .notFound, 2),
           (x.state = .onLine, .inUse, 2)]
          (s.answered Kind.removeFromChain h [] q))
      ∧ (∀ l, q.line l = (p.line l).map fun y => { y with chain := y.chain.filter (· ≠ position) })
      ∧ (position < 64 → ∀ i, q.source i = if i = position then { x with line := none } else p.source i)
      ∧ q.raised = [] ∧ p.OnlyIn [.lm] q ∧ q.lm.products = p.lm.products)

/-- FORCE_CHANGEOVER and SET_LINE_SERVICE (R21, R22). A changeover forced from DRY starts on the chain head, with no from-position; from
SERVING the ON_LINE head becomes SPENT and leaves the chain, and the attempt starts on the next position, or the line is DRY when none is
left; POURING pours on its taps end with KEG_OUT. The old head's KEG_CLOSE entry is written, or made pending (R6), as Plant.endKeg does:
FobEventsPrimeAndEndKegs spells it, and its SOURCE_STATE notice names no line (DESIGN CHOICE, log 18). A line is taken out of service from
SERVING, DRY or LOCKED, POURING pours on its taps ending with CANCELLED, and brought in by its content, a head that cannot serve going back
to LOADED. Each change of state raises the LINE_STATE notice (R9), and the outlet outputs are those of Table 1-6 in the new state (R10;
Plant.outletOf). That a REFUSED_STATE of SET_LINE_SERVICE names the line is the model's choice (DESIGN CHOICE, log 92). CS then judges its
jobs (DESIGN CHOICE, log 10). -/
def Obligations.ChangeoverAndServiceRequestsMoveTheLine : Prop :=
  (∀ (h : ReqHdr) (line : Nat) (s : State), Ready Kind.forceChangeover h s →
     let p := s.plant
     ∃ q : Plant,
       exec (.forceChangeover h line) s =
         .next (s.checked Kind.forceChangeover h
           [((p.line line).isNone, .notFound, 1), (p.msc.stop ≠ .clear, .refusedState, 1),
            (!((p.line line).any fun x => p.active x.station), .refusedState, 1),
            (!((p.line line).any fun x => x.state = .serving ∨ x.state = .dry), .refusedState, 1),
            ((p.line line).any fun x => x.state = .dry ∧ x.chain = [], .refusedState, 1)]
           (s.answered Kind.forceChangeover h [] q.csSettle))
       ∧ (∀ x, line < 48 → p.line line = some x →
           (∀ hd rest, hd < 64 → x.state = .dry → x.chain = hd :: rest →
             q.LineNoted line { x with
               state := .changeover, content := .gas, change := some ⟨hd, none, p.now, none⟩,
               outlet := ⟨(p.source hd).bound.map (·.2), .supply, true⟩ }
             ∧ q.source hd = { p.source hd with state := .onLine } ∧ q.au = p.au)
           ∧ (∀ hd rest, x.state = .serving → x.chain = hd :: rest → (p.source hd).state = .onLine →
               (let r := p.endKeg hd .spent
                q.source hd = r.source hd ∧ (r.source hd).state = .spent ∧ (r.source hd).line = none ∧ q.au = r.au
                ∧ ∀ n ∈ r.raised, n ∈ q.raised)
               ∧ ∃ y, q.LineNoted line y ∧ y.content = .gas ∧ y.chain = x.chain.filter (· ≠ hd)
                   ∧ match x.chain.filter (· ≠ hd) with
                     | [] => y.state = .dry ∧ y.change = none
                     | n :: _ => y.state = .changeover ∧ y.change = some ⟨n, some hd, p.now, none⟩)
           ∧ (x.state = .serving → p.lineOpen line = true →
               ∀ i u, i < 96 → (p.tap i).line = some line → (p.tap i).state = .pouring → (p.tap i).pour = some u →
                 ∃ v, (q.tap i).pour = some v ∧ v.cause = some .kegOut))
       ∧ p.OnlyIn [.lm, .pe, .au] q)
  ∧ (∀ (h : ReqHdr) (line : Nat) (direction : EnumField Direction) (s : State), Ready Kind.setLineService h s →
       let p := s.plant
       ∃ q : Plant,
         exec (.setLineService h line direction) s =
           .next (s.checked Kind.setLineService h
             [((p.line line).isNone, .notFound, 1), (wrongEnum direction, .badParam, 2),
              (enumOr .out direction = .out
                 ∧ !((p.line line).any fun x => x.state = .serving ∨ x.state = .dry ∨ x.state = .locked), .refusedState, 1),
              (enumOr .out direction = .into ∧ !((p.line line).any fun x => x.state = .outOfService), .refusedState, 1)]
             (s.answered Kind.setLineService h [] q.csSettle))
         ∧ (∀ x, line < 48 → p.line line = some x →
             (direction = .val .out →
               (∃ y, q.LineNoted line y ∧ y.state = .outOfService ∧ y.content = x.content ∧ y.chain = x.chain ∧ y.change = none)
               ∧ (x.state = .serving → p.lineOpen line = true →
                   ∀ i u, i < 96 → (p.tap i).line = some line → (p.tap i).state = .pouring → (p.tap i).pour = some u →
                     ∃ v, (q.tap i).pour = some v ∧ v.cause = some .cancelled))
             ∧ (direction = .val .into →
               ∃ y, q.LineNoted line y ∧ y.content = x.content ∧ y.chain = x.chain
                 ∧ y.state = (match x.content with
                     | .beer => if (p.onLineHead x).isSome then .serving else .dry
                     | .gas => .dry
                     | _ => .locked)
                 ∧ (x.content ≠ .beer → ∀ hd, p.onLineHead x = some hd → (q.source hd).state = .loaded)))
         ∧ p.OnlyIn [.lm, .pe] q)

/-- What a cellar station gives LM (R6, R9, R13 to R16, R18 to R20, R57). A status gives the keg-present events in ascending coupler order,
then the FOB events in ascending line index; but before an ON_LINE head that is removed on a SERVING or DRAINING line, the standbys removed
in the same status are taken: they are VACANT and out of the chain when the line's state is picked (R14; in a re-trip window, and by coupler
order elsewhere, DESIGN CHOICE, log 73). A FOB event to CLEAR in CHANGEOVER primes the attempt: SERVING with BEER. To TRIPPED, or a keg
taken from under an ON_LINE head, it is a keg end: on a SERVING or DRAINING line the head is SPENT, POURING pours on its taps end with FOB
or KEG_OUT, and the line tries the next position when its auto-changeover flag is set and no stop is in force; inside a re-trip window the
attempt's position is FAULT, and the flag plays no part; else the line is DRY. A keg end exactly 5000 ms after the prime is still inside the
window (DEDUCED, log 23). A keg taken during an attempt interrupts it, and the position is SPENT; taken from a LOADED position it leaves it
VACANT. The loss of the station sets its lines' unsupervised flags and interrupts their attempts, in ascending line number (DESIGN CHOICE,
log 89), the position tried going back to LOADED; its join clears the flags and gives its initial values as events. The SOURCE_STATE notice
of a position that has left its chain names no line (255; DESIGN CHOICE, log 18). A position that becomes SPENT or FAULT writes its
KEG_CLOSE entry, with YIELD_DRIFT outside the bounds of its yield (R170), or, while pours in progress name it, has
close pending set and writes none (R6). Each attempt ends with its CHANGEOVER entry and notice, each change of a line's state raises
LINE_STATE, and with each the outlet outputs are those of Table 1-6 (R10; Plant.outletOf), a line taken by a head's end out of service
among them. -/
def Obligations.FobEventsPrimeAndEndKegs : Prop :=
  (∀ (p : Plant) (l : Nat) (x : Line), l < 48 → p.line l = some x →
    (∀ c, x.state = .changeover → x.change = some c →
      p.fobEvent l true = p
      ∧ (let q := p.fobEvent l false
         (∃ y, q.LineNoted l y ∧ y.state = .serving ∧ y.content = .beer ∧ y.chain = x.chain
            ∧ y.change = some { c with primed := some p.now })
          ∧ q.au = (p.record (.changeover l c.fromPos (some c.position) .primed)).au
          ∧ ⟨.changeoverResult, l, 0, c.position, p.clock⟩ ∈ q.raised)
      ∧ (∀ removal : Bool, c.position < 64 →
          let q := p.interruptAttempt l removal
          let r := p.record (.changeover l c.fromPos (some c.position) .interrupted)
          (∃ y, q.LineNoted l y ∧ y.state = .dry ∧ y.content = .gas ∧ y.change = none
              ∧ y.chain = if removal then x.chain.filter (· ≠ c.position) else x.chain)
            ∧ (removal = true →
                let w := r.endKeg c.position .spent
                q.source c.position = w.source c.position ∧ (w.source c.position).state = .spent ∧ q.au = w.au
                ∧ ∀ n ∈ w.raised, n ∈ q.raised)
            ∧ (removal = false → (q.source c.position).state = .loaded ∧ q.au = r.au)
            ∧ ⟨.changeoverResult, l, 3, c.position, p.clock⟩ ∈ q.raised))
    ∧ (x.state ≠ .changeover → p.fobEvent l true = p.kegEnd l .fob ∧ p.fobEvent l false = p)
    ∧ (∀ cause hd rest, x.state = .serving ∨ x.state = .draining → x.chain = hd :: rest → (p.source hd).state = .onLine →
        (∀ c t, x.change = some c → c.primed = some t → t + 5000 < p.now) →
        let q := p.kegEnd l cause
        let r := p.endKeg hd .spent
        (q.source hd = r.source hd ∧ (r.source hd).state = .spent ∧ (r.source hd).line = none ∧ q.au = r.au ∧ ∀ n ∈ r.raised, n ∈ q.raised)
        ∧ (∃ y, q.LineNoted l y ∧ y.content = .gas ∧ y.chain = x.chain.filter (· ≠ hd)
            ∧ match x.chain.filter (· ≠ hd) with
              | [] => y.state = .dry ∧ y.change = none
              | n :: _ =>
                if x.auto = true ∧ p.msc.stop = .clear then y.state = .changeover ∧ y.change = some ⟨n, some hd, p.now, none⟩
                else y.state = .dry ∧ y.change = none)
        ∧ (∀ i u, i < 96 → (p.tap i).line = some l → (p.tap i).state = .pouring → (p.tap i).pour = some u → p.lineOpen l = true →
            ∃ v, (q.tap i).pour = some v ∧ v.cause = some cause))
    ∧ (∀ cause c t, x.state = .serving ∨ x.state = .draining → x.change = some c → c.primed = some t → p.now ≤ t + 5000 →
        c.position < 64 →
        let q := p.kegEnd l cause
        let r := p.endKeg c.position .fault
        (q.source c.position = r.source c.position ∧ (r.source c.position).state = .fault ∧ (r.source c.position).line = none
          ∧ q.au = (r.record (.changeover l c.fromPos (some c.position) .failedRetrip)).au ∧ (∀ n ∈ r.raised, n ∈ q.raised)
          ∧ ⟨.changeoverResult, l, 2, c.position, p.clock⟩ ∈ q.raised)
        ∧ (∃ y, q.LineNoted l y ∧ y.content = .gas ∧ y.chain = x.chain.filter (· ≠ c.position)
            ∧ match x.chain.filter (· ≠ c.position) with
              | [] => y.state = .dry ∧ y.change = none
              | n :: _ =>
                if p.msc.stop = .clear then y.state = .changeover ∧ y.change = some ⟨n, some c.position, p.now, none⟩
                else y.state = .dry ∧ y.change = none)
        ∧ (∀ i u, i < 96 → (p.tap i).line = some l → (p.tap i).state = .pouring → (p.tap i).pour = some u → p.lineOpen l = true →
            ∃ v, (q.tap i).pour = some v ∧ v.cause = some cause))
    ∧ (∀ cause, x.state = .dry ∨ x.state = .locked → p.kegEnd l cause = p)
    ∧ (∀ cause hd rest, x.state = .outOfService → x.chain = hd :: rest → hd < 64 → (p.source hd).state = .onLine →
        let q := p.kegEnd l cause
        let r := p.endKeg hd .spent
        (q.source hd = r.source hd ∧ (r.source hd).state = .spent ∧ q.au = r.au ∧ q.raised = r.raised)
        ∧ ∃ y, q.line l = some y ∧ y.state = .outOfService ∧ y.content = .gas ∧ y.chain = x.chain.filter (· ≠ hd)
            ∧ y.outlet = q.outletOf y))
  ∧ (∀ (p : Plant) (i : Nat) (st : SourceState), i < 64 → p.KegEnded i st (p.endKeg i st))
  ∧ (∀ (p : Plant) (i : Nat), i < 64 →
      let x := p.source i
      let q := p.kegRemoved i
      (x.state = .vacant → q = p)
      ∧ (x.state = .loaded →
          (q.source i).state = .vacant ∧ (q.source i).keg = none ∧ (q.source i).bound = x.bound
          ∧ (∀ l, q.line l = (p.line l).map fun y => { y with chain := y.chain.filter (· ≠ i) })
          ∧ ∃ w : Plant, p.KegClosed i (x.keg.filter fun k => 0 < k.dispensed) w ∧ q.au = w.au
              ∧ q.raised = w.raised ++ [⟨.sourceState, i, 0, 255, p.clock⟩])
      ∧ (x.state = .spent ∨ x.state = .fault →
          q.source i = (if x.closePending then { x with removed := true }
            else { x with state := .vacant, keg := none, line := none, closePending := false, removed := false }))
      ∧ (∀ l, x.state = .onLine → x.line = some l →
          q = if (p.line l).map (·.state) = some .changeover then p.interruptAttempt l true else p.kegEnd l .kegOut))
  ∧ (∀ (p : Plant) (a : Nat) (kegs : Vector Bool 16) (fobs : Vector Bool 12) (old : Option (Vector Bool 16 × Vector Bool 12)),
      let gone := (List.range 16).filter fun k => !kegs.toList.getD k true && old.all fun o => o.1.toList.getD k false
      let moved := (List.range 12).filter fun k => old.all fun o => o.2.toList.getD k false != fobs.toList.getD k false
      let standbys : Plant → Line → Plant := fun w x => gone.foldl (fun w k => match w.positionAt a k with
        | some i => if i ∈ x.chain ∧ (w.source i).state = .loaded then w.unloadLoaded i else w
        | none => w) w
      let r := gone.foldl (fun r k => match r.positionAt a k with
        | some i => (match (r.source i).state, (r.source i).line.bind r.line with
            | .onLine, some x => if x.state = .serving ∨ x.state = .draining then (standbys r x).kegRemoved i else r.kegRemoved i
            | _, _ => r.kegRemoved i)
        | none => r) p
      p.cellarStatus a kegs fobs old =
        moved.foldl (fun r k => match r.lineAt a k with | some l => r.fobEvent l (fobs.toList.getD k false) | none => r) r)
  ∧ (∀ (p : Plant) (a k n m i l : Nat) (gone : List Nat) (x : Line),
      p.positionAt a k = some i → (p.source i).state = .onLine → (p.source i).line = some l → p.line l = some x →
      x.state = .serving ∨ x.state = .draining → (∀ c, x.change = some c → c.position = i) →
      m ∈ gone → p.positionAt a m = some n → n ∈ x.chain → (p.source n).state = .loaded →
      let q := p.removalAt a gone k
      (q.source n).state = .vacant ∧ ∃ y, q.line l = some y ∧ n ∉ y.chain ∧ ∀ c, y.change = some c → c.position ≠ n)
  ∧ ∀ (p : Plant) (a : Nat),
      (let q := p.cellarLoss a
       (∀ l x, p.line l = some x →
         (x.station ≠ a → q.line l = some x)
         ∧ (x.station = a → x.state ≠ .changeover → q.line l = some { x with unsupervised := true })
         ∧ (x.station = a → x.state = .changeover → x.change ≠ none →
             ∃ y, q.line l = some y ∧ ⟨.lineState, l, 3, 1, p.clock⟩ ∈ q.raised
               ∧ y.state = .dry ∧ y.content = .gas ∧ y.change = none ∧ y.unsupervised = true ∧ y.chain = x.chain
               ∧ (y.chain.head? = x.change.map (·.position) → y.outlet = ⟨none, .closed, false⟩))
         ∧ (∀ c, x.station = a → x.state = .changeover → x.change = some c →
             (c.position < 64 → (q.source c.position).state = .loaded)
             ∧ ⟨.changeoverResult, l, 3, c.position, p.clock⟩ ∈ q.raised)
         ∧ (x.station = a → ∃ v, q.lineView l = some v ∧ v.unsupervised = true))
       ∧ q.au = ((p.interruptions fun x => x.station = a).foldl Plant.record p).au
       ∧ p.OnlyIn [.lm, .pe, .au] q)
      ∧ ∀ (kegs : Vector Bool 16) (fobs : Vector Bool 12), ∃ r : Plant,
          p.cellarJoin a kegs fobs = r.cellarStatus a kegs fobs none
          ∧ (∀ l, r.line l = (p.line l).map fun x => if x.station = a then { x with unsupervised := false } else x)
          ∧ (∀ l x, p.line l = some x → x.station = a → ∃ v, r.lineView l = some v ∧ v.unsupervised = false)
          ∧ r.lm.sources = p.lm.sources ∧ p.OnlyIn [.lm, .pe] r

/-- The prime timeout of an attempt and the close of a re-trip window (R18, R19). After a timeout the position tried is FAULT and out of the
chain, its SOURCE_STATE notice naming no line (DESIGN CHOICE, log 18), its KEG_CLOSE entry written or made pending (R6), the CHANGEOVER
entry and notice give FAILED_TIMEOUT, and the line tries its next position, or is DRY, with its LINE_STATE notice (R9), when none is left or
stop is in force; a line that goes on trying stays in CHANGEOVER and raises none. The outlet outputs are those of Table 1-6, in DRY and with
the next position tried (R10, R17). CS then judges its jobs (DESIGN CHOICE, log 10). The time base is brought to the timer's end, and with
no such timer running nothing changes (DESIGN CHOICE, log 2). -/
def Obligations.ChangeoverTimersActAsTheRulesSay : Prop :=
  ∀ (line : Nat) (s : State),
    let p := s.plant
    (∀ x c, p.line line = some x → x.state = .changeover → x.change = some c → c.primed = none →
      ∃ q : Plant, exec (.changeoverTimeout line) s = .next (s.arrived q.csSettle)
        ∧ q.msc = { p.msc with timeBase := max p.now (c.start + 90000) }
        ∧ (line < 48 → c.position < 64 →
            (let r := p.endKeg c.position .fault
             q.source c.position = r.source c.position ∧ (r.source c.position).state = .fault ∧ (r.source c.position).line = none
             ∧ q.au = (r.record (.changeover line c.fromPos (some c.position) .failedTimeout)).au ∧ (∀ n ∈ r.raised, n ∈ q.raised)
             ∧ ⟨.changeoverResult, line, 1, c.position, p.clock⟩ ∈ q.raised)
            ∧ ∃ y, q.line line = some y ∧ y.content = .gas ∧ y.chain = x.chain.filter (· ≠ c.position)
                ∧ y.outlet = q.outletOf y ∧ (y.state = .dry → q.LineNoted line y)
                ∧ (y.state ≠ .dry → ∀ n ∈ q.raised, n.kind = .lineState → n ∈ p.raised)
                ∧ match x.chain.filter (· ≠ c.position) with
                  | [] => y.state = .dry ∧ y.change = none
                  | n :: _ =>
                    if p.msc.stop = .clear then y.state = .changeover ∧ y.change = some ⟨n, some c.position, q.now, none⟩
                    else y.state = .dry ∧ y.change = none))
    ∧ ((∀ x c, p.line line = some x → x.state = .changeover → x.change = some c → c.primed ≠ none) →
        exec (.changeoverTimeout line) s = .next s)
    ∧ (∀ x c t, p.line line = some x → x.change = some c → c.primed = some t →
        ∃ q : Plant, exec (.retripWindowClose line) s = .next (s.arrived q)
          ∧ q.msc = { p.msc with timeBase := max p.now (t + 5000) }
          ∧ (line < 48 → q.line line = some { x with change := none })
          ∧ (∀ l, l ≠ line → q.line l = p.line l) ∧ p.OnlyIn [.msc, .lm] q ∧ q.raised = p.raised)
    ∧ ((∀ x c, p.line line = some x → x.change = some c → c.primed = none) → exec (.retripWindowClose line) s = .next s)

/-! ### Tickets (chapter 2) -/

/-- ISSUE_TICKET (R29): the lowest-indexed FREE record takes the ticket, which joins the tail of its station's queue; AU counts the
issue (R28), PE takes the queue event (R39), and the reply carries the index, in 1 byte (DESIGN CHOICE, log 83), and the expiry time. The
details of the two FULL answers are free values (DESIGN CHOICE, log 7). -/
def Obligations.IssuedTicketTakesTheLowestFreeRecord : Prop :=
  ∀ (h : ReqHdr) (station product portion : Nat) (validity : Option Nat) (reference : Word32) (s : State),
    Ready Kind.issueTicket h s →
    let p := s.plant
    let seconds := validity.getD 600
    let i := ((List.range 160).find? fun k => p.ticket k = none).getD 0
    ∃ q : Plant,
      exec (.issueTicket h station product portion validity reference) s =
        .next (s.checked Kind.issueTicket h
          [(station < 1 ∨ 30 < station, .badParam, 1), (31 < product, .badParam, 2),
           (portion < 100 ∨ 1000 < portion ∨ portion % 10 ≠ 0, .badParam, 3), (seconds < 10 ∨ 3600 < seconds, .badParam, 4),
           ((p.station station).kind ≠ some .tap, .notFound, 1), ((p.product product).isNone, .notFound, 2),
           ((List.range 160).all fun k => p.ticket k ≠ none, .full, Config.poolDetail),
           (8 ≤ (p.queue station).length, .full, Config.queueDetail)]
          (s.answered Kind.issueTicket h (leBytes 1 i ++ leBytes 4 (p.clock + BitVec.ofNat 32 seconds).toNat) q))
      ∧ (∀ k, q.ticket k =
          if k = i then some
            { state := .queued, reference := reference, station := station, product := product, portion := portion,
              remaining := portion, issuedAt := p.clock, expiresAt := p.clock + BitVec.ofNat 32 seconds, topupDeadline := none,
              validity := .running (p.now + seconds * 1000), topup := .off }
          else p.ticket k)
      ∧ (1 ≤ station → station ≤ 30 →
          (∀ a, q.queue a = if a = station then p.queue station ++ [i] else p.queue a)
          ∧ q.marksOf station = q.queueMarks station)
      ∧ q.au = { p.au with issued := p.au.issued + 1 } ∧ q.tkm.window = p.tkm.window ∧ q.raised = [] ∧ p.OnlyIn [.tkm, .pe, .au] q

/-- CANCEL_TICKET (R38, R27, R28): a QUEUED or PARTIAL ticket closes VOID_CANCELLED: its record is FREE, it leaves its queue, its
TICKET_CLOSE entry is asked for, and AU counts it voided. The cancel raises no notice of its own (R38): what is raised is what the
entry's writing raises, JOURNAL_LEVEL where the fill reaches the mark (R161). Its station's product marks are as its queue gives them
(R39). -/
def Obligations.CancelledTicketClosesVoid : Prop :=
  ∀ (h : ReqHdr) (ticket : Nat) (reference : Word32) (s : State), Ready Kind.cancelTicket h s →
    let p := s.plant
    ∃ q : Plant,
      exec (.cancelTicket h ticket reference) s =
        .next (s.checked Kind.cancelTicket h
          [(159 < ticket, .badParam, 1), ((p.ticket ticket).isNone, .notFound, 1),
           (!((p.ticket ticket).any fun k => k.reference = reference), .notFound, 2),
           ((p.ticket ticket).any fun k => k.state ≠ .queued ∧ k.state ≠ .part, .inUse, 1)]
          (s.answered Kind.cancelTicket h [] q))
      ∧ (∀ k, p.ticket ticket = some k → ticket < 160 →
          (∀ i, q.ticket i = if i = ticket then none else p.ticket i)
          ∧ (1 ≤ k.station → k.station ≤ 30 →
              (∀ a, q.queue a = if a = k.station then (p.queue a).filter (· ≠ ticket) else p.queue a)
              ∧ q.marksOf k.station = q.queueMarks k.station)
          ∧ q.au = { (p.record (.ticketClose k.reference k.station (p.code k.product) k.portion .voidCancelled k.remaining)).au with
              voided := p.au.voided + 1 }
          ∧ q.raised = (p.record (.ticketClose k.reference k.station (p.code k.product) k.portion .voidCancelled k.remaining)).raised)
      ∧ q.tkm.window = p.tkm.window ∧ p.OnlyIn [.tkm, .pe, .au] q

/-- SET_TOPUP_WINDOW (R30): a window of 0 to 120 s is stored, in CONFIG and in LIVE, and nothing else changes; device reset leaves
30 s, and a link reset leaves the window as it is. The window in force at a pour's end is the one that the ticket's outcome and its
top-up deadline take; a deadline already held stays. -/
def Obligations.TopupWindowIsStored : Prop :=
  (∀ (h : ReqHdr) (window : Nat) (s : State), LinkReady s → h.length = none → Quiet s →
    exec (.setTopupWindow h window) s =
      .next (s.checked Kind.setTopupWindow h [(120 < window, .badParam, 1)]
        (s.answered Kind.setTopupWindow h [] { s.plant with tkm := { s.plant.tkm with window := window } })))
  ∧ (∀ (pinLow : Bool) (s : State), ∃ t, exec (.deviceReset pinLow) s = .next t ∧ t.plant.tkm.window = 30)
  ∧ (∀ s : State, ∃ t, exec .linkReset s = .next t ∧ t.plant.tkm.window = s.plant.tkm.window)
  ∧ (∀ (p : Plant) (k : Ticket) (ml : Nat) (c : EndCause), p.tkm.window = 0 → ml + p.tolerance k.product < k.remaining →
      p.pourOutcome k ml c = .short)
  ∧ ∀ (p : Plant) (i : Nat) (k : Ticket) (ml : Nat), i < 160 → ∃ r, (p.partTicket i k ml).ticket i = some r
      ∧ (k.topupDeadline = none → r.topupDeadline = some (p.clock + BitVec.ofNat 32 p.tkm.window)
          ∧ r.topup = .running (p.now + p.tkm.window * 1000))
      ∧ (k.topupDeadline ≠ none → r.topupDeadline = k.topupDeadline ∧ r.topup = k.topup)

/-- The ends of a ticket's validity timer and top-up timer (R36, R37): a QUEUED ticket closes VOID_EXPIRED, a PARTIAL one closes SHORT,
which counts for its product in the period and in the lifetime part (R166), each with its TICKET_EXPIRED notice; in any other state the
timer is only marked as run out. The time base is brought to the timer's end, and with no such timer running nothing changes (DESIGN CHOICE,
log 2). -/
def Obligations.TicketTimersCloseOrMark : Prop :=
  ∀ (i : Nat) (s : State) (k : Ticket), i < 160 → s.plant.ticket i = some k →
    let p := s.plant
    (∀ d, k.validity = .running d → ∃ q : Plant, exec (.validityTimerExpiry i) s = .next (s.arrived q)
        ∧ q.msc = { p.msc with timeBase := max p.now d } ∧ p.OnlyIn [.msc, .tkm, .pe, .au] q
        ∧ (∀ j, j ≠ i → q.ticket j = p.ticket j)
        ∧ (k.state = .queued → q.ticket i = none ∧ q.au.voided = p.au.voided + 1 ∧ i ∉ q.queue k.station
            ∧ q.au.totals = p.au.totals ∧ q.au.tapTotals = p.au.tapTotals
            ∧ (p.room = true → ∃ e, q.au.journal = p.au.journal ++ [e]
                ∧ e.body = .ticketClose k.reference k.station (p.code k.product) k.portion .voidExpired k.remaining)
            ∧ ∃ l, q.raised = p.raised ++ l ++ [⟨.ticketExpired, i, Outcome.num .voidExpired, k.station, p.clock⟩])
        ∧ (k.state ≠ .queued → q.ticket i = some { k with validity := .out } ∧ q.au = p.au ∧ q.pe = p.pe ∧ q.raised = p.raised))
    ∧ (∀ d, k.topup = .running d → ∃ q : Plant, exec (.topupTimerExpiry i) s = .next (s.arrived q)
        ∧ q.msc = { p.msc with timeBase := max p.now d } ∧ p.OnlyIn [.msc, .tkm, .pe, .au] q
        ∧ (∀ j, j ≠ i → q.ticket j = p.ticket j)
        ∧ (k.state = .part → q.ticket i = none ∧ q.au.shorted = p.au.shorted + 1 ∧ i ∉ q.queue k.station
            ∧ (∀ n, n < 32 → q.totals n =
                if n = k.product then ((p.totals n).1.shortened, (p.totals n).2.shortened) else p.totals n)
            ∧ q.au.tapTotals = p.au.tapTotals
            ∧ (p.room = true → ∃ e, q.au.journal = p.au.journal ++ [e]
                ∧ e.body = .ticketClose k.reference k.station (p.code k.product) k.portion .short k.remaining)
            ∧ ∃ l, q.raised = p.raised ++ l ++ [⟨.ticketExpired, i, Outcome.num .short, k.station, p.clock⟩])
        ∧ (k.state ≠ .part → q.ticket i = some { k with topup := .out } ∧ q.au = p.au ∧ q.pe = p.pe ∧ q.raised = p.raised))
    ∧ ((∀ d, k.validity ≠ .running d) → exec (.validityTimerExpiry i) s = .next s)
    ∧ ((∀ d, k.topup ≠ .running d) → exec (.topupTimerExpiry i) s = .next s)

/-! ### Taps and pours (chapters 3 and 4) -/

/-- PE's upkeep of a tap (R42, R43, R45, R48, R49). Each hold reason of R43 is present while its condition holds, and none on a tap without
a line; the state is that of the first row of Table 3-2 that applies; the lamp is that of Table 3-3 and the valve command that of R48 and
R66; staged settings are applied in IDLE and HELD, a tap that enters OFF, OFFLINE, CLEANING or UNASSIGNED loses an ARMED calibration, and
keeps any other (R77), a no-ticket display ends with any change of state, and no other tap changes. A tap whose address holds an ACTIVE
station of another type is OFFLINE (DEDUCED, log 64). A change of state other than among IDLE, POURING and ENDING raises the TAP_STATE
notice, with the holds of a tap that is HELD, and no other upkeep raises a notice (R42, Table 10-5). Whatever command but a reset brings a
change of a tap's state about, HL holds at its end a TAP_STATE notice of the tap that shows the state it now has, or one of IDLE, POURING
and ENDING where it has one of them, unless the notice queue overflowed (R42, R192). -/
def Obligations.TapUpkeepFollowsTheTables : Prop :=
  (∀ (c : Instr) (s t : State) (i : Nat), (∀ b, c ≠ .deviceReset b) → Quiet s → exec c s = .next t → i < 96 →
    let old := (s.plant.tap i).state
    let new := (t.plant.tap i).state
    old ≠ new → ¬(old.quiet = true ∧ new.quiet = true) →
      t.hl.overflow = true
        ∨ ∃ n ∈ t.hl.notices, n.kind = .tapState ∧ n.subject = i
          ∧ (n.first = new.num ∨ (new.quiet = true ∧ ∃ shown : TapState, shown.quiet = true ∧ n.first = shown.num)))
  ∧ ∀ (p : Plant) (i : Nat), i < 96 →
    let t := p.tap i
    let q := p.refreshTap i
    let u := q.tap i
    let view : Option LineView := t.line.bind p.lineView
    let online : Bool := t.station.any fun b => decide ((p.station b.1).kind = some .tap ∧ (p.station b.1).state = .active)
    (t.line = none → u.holds = ⟨false, false, false, false, false⟩)
      ∧ (t.line ≠ none →
          (u.holds.line = true ↔ view.map (·.state) ≠ some .serving)
          ∧ (u.holds.trunkHot = true ↔ view.map (fun v => p.trunkView v.trunk) = some .hot)
          ∧ (u.holds.stop = true ↔ p.msc.stop ≠ .clear)
          ∧ (u.holds.journal = true ↔ p.au.refused = true)
          ∧ (u.holds.unsupervised = true ↔ view.map (·.unsupervised) = some true))
      ∧ u.state = p.tapRow { t with holds := u.holds }
      ∧ (u.station = t.station ∧ u.line = t.line ∧ u.off = t.off ∧ u.cleaning = t.cleaning ∧ u.pour = t.pour ∧ u.count = t.count
          ∧ u.creep = t.creep ∧ u.residue = t.residue ∧ u.late = t.late ∧ u.capImage = t.capImage)
      ∧ (u.calibration =
          if u.state ≠ t.state ∧ (u.state = .off ∨ u.state = .offline ∨ u.state = .cleaning ∨ u.state = .unassigned) then
            (match t.calibration with | some (.armed _ _ _) => none | c => c)
          else t.calibration)
      ∧ (u.noTicket = if u.state = t.state then t.noTicket else none)
      ∧ (u.state = .idle ∨ u.state = .held →
          u.mode = t.staged.mode.getD t.mode ∧ u.factor = t.staged.factor.getD t.factor ∧ u.limit = t.staged.limit.getD t.limit
          ∧ u.staged = Staged.none)
      ∧ (u.state ≠ .idle ∧ u.state ≠ .held → u.mode = t.mode ∧ u.factor = t.factor ∧ u.limit = t.limit ∧ u.staged = t.staged)
      ∧ (u.state ≠ .pouring ∧ u.state ≠ .cleaning → u.valve = .closed)
      ∧ (u.state = .pouring → ∀ v, u.pour = some v →
          u.valve =
            if view.map (·.state) = some .serving ∨ view.map (·.state) = some .draining then
              (match v.target with | some c => .openTo c | none => .openHold)
            else .closed)
      ∧ (u.state = .cleaning → ∀ l, u.line = some l →
          u.valve = if p.flow l = true ∧ u.capImage = some true ∧ online = true ∧ p.msc.stop = .clear then .openHold else .closed)
      ∧ (u.lamp = match u.state with
          | .unassigned | .off | .offline => .off
          | .cleaning => .cap
          | .pouring | .ending => .pouring
          | .held => .held
          | .idle => if u.mode = .free then .ready else if u.noTicket.isSome then .noTicket
            else if t.station.any fun b => (t.line.bind p.line).any fun x => (p.marksOf b.1).getLsbD x.product then .ready else .off)
      ∧ q.raised = p.raised ++
          (if t.state = u.state ∨ (t.state.quiet = true ∧ u.state.quiet = true) then []
           else [⟨.tapState, i, u.state.num, if u.state = .held then u.holds.num else 0, p.msc.partClock⟩])
      ∧ (∀ j, j ≠ i → q.tap j = p.tap j) ∧ p.OnlyIn [.pe] q

/-- DEFINE_TAP (R44): the mapping and the settings are written, absent ones at their defaults (R41), staged settings, calibration and
late-count record are dropped (R73, R77, R79), and a tap moved to another station or tap index has unknown inputs (R67). The off flag is
clear in CONFIG, where a mapped tap rests in HELD or OFFLINE; in LIVE a tap mapped from UNASSIGNED has it set and is OFF, a tap mapped anew
in OFF keeps it and stays OFF, and a tap mapped to no line is UNASSIGNED, with the flag and every hold reason clear. Where another tap
holds the station and tap index, the detail of IN_USE is the later of the two fields, 3 (DEDUCED, log 6). -/
def Obligations.TapDefinitionIsWrittenOrRefused : Prop :=
  ∀ (h : ReqHdr) (tap station index : Nat) (line : Option Nat) (mode : EnumField TapMode) (factor limit : Option Nat) (s : State),
    Ready Kind.defineTap h s →
    let p := s.plant
    let t := p.tap tap
    ∃ q : Plant,
      exec (.defineTap h tap station index line mode factor limit) s =
        .next (s.checked Kind.defineTap h
          [(95 < tap, .badParam, 1), (station < 1 ∨ 30 < station, .badParam, 2),
           (3 < index ∨ (p.live = true ∧ (p.station station).kind = some .tap ∧ (p.station station).taps ≤ index), .badParam, 3),
           (line.any fun l => 47 < l, .badParam, 4), (wrongIfGiven mode, .badParam, 5),
           (factor.any fun f => f < 2000 ∨ 60000 < f, .badParam, 6), (limit.any fun l => l < 5 ∨ 60 < l, .badParam, 7),
           (p.live = true ∧ (p.station station).kind ≠ some .tap, .notFound, 2),
           (p.live && line.any fun l => (p.line l).isNone, .notFound, 4),
           ((List.range 96).any fun i => i ≠ tap ∧ (p.tap i).station = some (station, index), .inUse, 3),
           (line.any fun l => 4 ≤ ((List.range 96).filter fun i => i ≠ tap ∧ (p.tap i).line = some l).length, .full, 4),
           (p.live = true ∧ t.state ≠ .unassigned ∧ t.state ≠ .off, .refusedState, 1)]
          (s.answered Kind.defineTap h [] q))
      ∧ (tap < 96 →
          let u := q.tap tap
          u.station = some (station, index) ∧ u.line = line ∧ u.mode = enumOr .ticket mode ∧ u.factor = factor.getD 10000
            ∧ u.limit = limit.getD 20 ∧ u.staged = Staged.none ∧ u.calibration = none ∧ u.late = none ∧ u.pour = t.pour
            ∧ (t.station ≠ some (station, index) → u.count = none ∧ u.handle = none ∧ u.capImage = none ∧ u.valveImage = none)
            ∧ (line = none → u.state = .unassigned ∧ u.off = false ∧ u.holds = ⟨false, false, false, false, false⟩)
            ∧ (p.live = true → line ≠ none → (u.off = true ↔ t.off = true ∨ t.state = .unassigned))
            ∧ (p.live = true → t.state = .unassigned ∨ t.off = true → t.cleaning = false → t.pour = none → line ≠ none → u.state = .off)
            ∧ (p.live = false → u.off = false)
            ∧ (∀ l x, p.live = false → line = some l → p.line l = some x → x.state = .outOfService → t.cleaning = false → t.pour = none →
                u.state = .held ∨ u.state = .offline))
      ∧ (∀ j, j ≠ tap → q.tap j = p.tap j) ∧ q.pe.marks = p.pe.marks ∧ q.pe.flow = p.pe.flow ∧ p.OnlyIn [.pe] q

/-- SET_TAP, CLOSE_TAP and OPEN_TAP (R45 to R47). Settings are taken at once in CONFIG, in IDLE and in HELD, and are staged otherwise;
closing sets the off flag, makes a tap without a pour OFF, with its TAP_STATE notice, which discards an ARMED calibration (R77), and ends a
POURING pour with CANCELLED; a pour in ENDING keeps the cause it has. Opening clears the off flag, and PE's upkeep
(TapUpkeepFollowsTheTables) then gives the tap the row of Table 3-2 that applies (R42; Plant.tapRow): OFFLINE, HELD or IDLE, staged settings
being applied in the last two (R45). No other tap changes. -/
def Obligations.TapsAreSetClosedAndOpened : Prop :=
  ∀ (h : ReqHdr) (tap : Nat) (s : State),
    let p := s.plant
    let t := p.tap tap
    (∀ (mode : EnumField TapMode) (factor limit : Option Nat), Ready Kind.setTap h s → ∃ q : Plant,
      exec (.setTap h tap mode factor limit) s =
        .next (s.checked Kind.setTap h
          [(t.station = none, .notFound, 1), (wrongIfGiven mode, .badParam, 2),
           (factor.any fun f => f < 2000 ∨ 60000 < f, .badParam, 3), (limit.any fun l => l < 5 ∨ 60 < l, .badParam, 4)]
          (s.answered Kind.setTap h [] q))
      ∧ (tap < 96 →
          let u := q.tap tap
          let m := (enumVal? mode).orElse fun _ => t.staged.mode
          let f := factor.orElse fun _ => t.staged.factor
          let l := limit.orElse fun _ => t.staged.limit
          if p.live = false ∨ u.state = .idle ∨ u.state = .held then
            u.mode = m.getD t.mode ∧ u.factor = f.getD t.factor ∧ u.limit = l.getD t.limit ∧ u.staged = Staged.none
          else u.mode = t.mode ∧ u.factor = t.factor ∧ u.limit = t.limit ∧ u.staged = ⟨m, f, l⟩)
      ∧ (∀ j, j ≠ tap → q.tap j = p.tap j) ∧ p.OnlyIn [.pe] q)
    ∧ (Ready Kind.closeTap h s → ∃ q : Plant,
      exec (.closeTap h tap) s =
        .next (s.checked Kind.closeTap h
          [(t.station = none, .notFound, 1), (t.state = .unassigned, .refusedState, 1), (t.state = .cleaning, .inUse, 1)]
          (s.answered Kind.closeTap h [] q))
      ∧ (t.state = .off → q = p)
      ∧ (tap < 96 → t.state ≠ .off → (q.tap tap).off = true ∧ (t.pour = none → (q.tap tap).pour = none))
      ∧ (tap < 96 → t.state = .idle ∨ t.state = .held ∨ t.state = .offline → t.line ≠ none → t.cleaning = false → t.pour = none →
          (q.tap tap).state = .off ∧ (q.tap tap).valve = .closed ∧ (q.tap tap).lamp = .off
          ∧ (q.tap tap).calibration = (match t.calibration with | some (.armed _ _ _) => none | c => c)
          ∧ q.raised = [⟨.tapState, tap, TapState.off.num, 0, p.clock⟩])
      ∧ (tap < 96 → t.state = .pouring → t.line ≠ none → t.cleaning = false → p.tapOnline t = true →
          ∀ u, t.pour = some u → u.cause = none →
            (q.tap tap).state = .ending
            ∧ (q.tap tap).pour = some { u with cause := some .cancelled, limitEnd := none, endingEnd := some (p.now + 2000) })
      ∧ (tap < 96 → ∀ u, t.pour = some u → u.cause ≠ none →
          (q.tap tap).pour = some u
          ∧ (t.state = .ending → t.line ≠ none → t.cleaning = false → p.tapOnline t = true → (q.tap tap).state = .ending))
      ∧ (∀ j, j ≠ tap → q.tap j = p.tap j) ∧ p.OnlyIn [.pe] q)
    ∧ (Ready Kind.openTap h s → ∃ q : Plant,
      exec (.openTap h tap) s =
        .next (s.checked Kind.openTap h [(t.station = none, .notFound, 1), (t.state ≠ .off, .refusedState, 1)]
          (s.answered Kind.openTap h [] q))
      ∧ q = (p.setTap tap { t with off := false }).refreshTap tap
      ∧ (tap < 96 →
          let u := q.tap tap
          u.off = false ∧ u.state ≠ .off ∧ u.pour = t.pour ∧ u.state = p.tapRow { t with off := false, holds := u.holds }
          ∧ (t.line ≠ none → t.cleaning = false → t.pour = none → u.state = .offline ∨ u.state = .held ∨ u.state = .idle))
      ∧ (∀ j, j ≠ tap → q.tap j = p.tap j) ∧ p.OnlyIn [.pe] q)

/-- START_CALIBRATION and CALIBRATION_RESULT (R76, R80, R81): a SERVING line's IDLE tap is armed for 120 s; a result gives a factor,
accepted when it lies within 15 % of the old one and within range, which is then staged, and either way the CAL_RESULT entry is
asked for and the sub-record is gone. What the reply's two bytes hold of a factor above 65 534 is a free value (DESIGN CHOICE, log 37). -/
def Obligations.CalibrationIsStartedAndJudged : Prop :=
  ∀ (h : ReqHdr) (tap : Nat) (s : State),
    let p := s.plant
    let t := p.tap tap
    (∀ nominal, Ready Kind.startCalibration h s →
      exec (.startCalibration h tap nominal) s =
        .next (s.checked Kind.startCalibration h
          [(t.station = none, .notFound, 1), (nominal < 200 ∨ 1000 < nominal, .badParam, 2),
           (t.calibration.any fun c => match c with | .awaiting .. => true | _ => false, .inUse, 1),
           (!(t.state = .idle ∧ t.line.any fun l => (p.lineView l).any fun v => v.state = .serving), .refusedState, 1)]
          (s.answered Kind.startCalibration h (leBytes 4 (p.clock + 120#32).toNat)
            (p.setTap tap { t with calibration := some (.armed nominal (p.clock + 120#32) (p.now + 120000)) }))))
    ∧ (∀ measured pulses ml old nominal deadline timer, Ready Kind.calibrationResult h s →
        t.calibration = some (.awaiting pulses ml old nominal deadline timer) →
        let factor := pulses * 1000 / measured
        let accepted : Bool := old * 85 ≤ factor * 100 ∧ factor * 100 ≤ old * 115 ∧ 2000 ≤ factor ∧ factor ≤ 60000
        ∃ q : Plant,
          exec (.calibrationResult h tap measured) s =
            .next (s.checked Kind.calibrationResult h
              [(t.station = none, .notFound, 1), (measured < 1 ∨ 2000 < measured, .badParam, 2)]
              (s.answered Kind.calibrationResult h (fFactor factor ++ leBytes 1 accepted.toNat) q))
          ∧ q.au = (p.record (.calResult tap measured factor accepted)).au
          ∧ (tap < 96 →
              let u := q.tap tap
              u.calibration = none
              ∧ (accepted = true → if u.state = .idle ∨ u.state = .held then u.factor = factor else u.staged.factor = some factor)
              ∧ (accepted = false → t.staged.factor = none → u.factor = t.factor))
          ∧ (∀ j, j ≠ tap → q.tap j = p.tap j) ∧ p.OnlyIn [.pe, .au] q)
    ∧ (∀ measured, Ready Kind.calibrationResult h s → t.station ≠ none → 1 ≤ measured → measured ≤ 2000 →
        (t.calibration.all fun c => match c with | .awaiting .. => false | _ => true) = true →
        exec (.calibrationResult h tap measured) s = .next (s.declined Kind.calibrationResult h .refusedState 1 []))

/-- The timers of a tap (R49, R56, R73, R77, R79): the no-ticket display ends; a POURING pour takes the cause LIMIT and is ENDING; a
late-count record and a calibration sub-record go. The time base is brought to the timer's end, and with no such timer running nothing
changes (DESIGN CHOICE, logs 2 and 3). At the loss of a tap station (R61, R73) its taps are taken in ascending number (DESIGN CHOICE, log
74): each pour on them completes at once, as PoursStartWithAReservationAndCompleteIntoIt spells it (R59; Plant.completePour), incomplete,
with STATION_LOST unless it had its end cause, and leaves the late-count record that these timers end, with the seq of its POUR entry and
the product and the category of its volume; every valve is CLOSED, and a tap that is not UNASSIGNED, OFF or CLEANING is OFFLINE; at the join
(R60, R74, R75) a restart drops the record, and otherwise the volume that the new count adds is an AMEND and joins the totals, or is creep
when the AMEND finds no place; the initial values follow. The records of several taps are taken in ascending tap index on the station
(DESIGN CHOICE, log 95). An AMEND adds its volume, and no pour, to the product and the category of the pour it amends (R166). -/
def Obligations.TapTimersActAsTheRulesSay : Prop :=
  (∀ (p : Plant) (i : Nat), i < 96 →
     let t := p.tap i
     (t.pour = none → p.losePour i = p)
     ∧ ∀ u, t.pour = some u →
         let ended : Pour := { u with cause := some (u.cause.getD .stationLost) }
         let record : LateCount :=
           { seq := p.au.nextSeq, base := u.base, atLoss := t.count.getD u.base
             ml := ((t.count.getD u.base) - u.base).toNat * 1000 / u.factor, factor := u.factor, source := u.source
             startBase := u.startBase
             category := if u.kind = .calibration then .calibration else if u.mode = .free then .free else .ticketed
             product := t.line.bind fun l => (p.line l).map (·.product), lossBase := p.now }
         p.losePour i = (p.setTap i { t with pour := some ended, late := some record }).completePour i true)
  ∧ (∀ (p : Plant) (a : Nat),
       let own := (List.range 96).filter fun i => decide ((p.tap i).station.map (·.1) = some a)
       p.tapLoss a = (own.foldl Plant.losePour p).refreshTaps own
       ∧ ∀ i ∈ own, (p.station a).state ≠ .active →
           let t := p.tap i
           let u := (p.tapLoss a).tap i
           u.valve = .closed ∧ (t.line ≠ none → t.off = false → t.cleaning = false → u.state = .offline ∧ u.lamp = .off))
  ∧ (∀ (p : Plant) (a i k : Nat) (u : Pour), i < 96 → (p.tap i).station = some (a, k) → (p.tap i).pour = some u →
     let t := p.tap i
     let q := p.tapLoss a
     let product := t.line.bind fun l => (p.line l).map (·.product)
     let ml := ((t.count.getD u.base) - u.base).toNat * 1000 / u.factor
     (q.tap i).pour = none
     ∧ ∃ r, (q.tap i).late = some r
         ∧ r.base = u.base ∧ r.atLoss = t.count.getD u.base ∧ r.ml = ml ∧ r.factor = u.factor ∧ r.source = u.source
         ∧ r.startBase = u.startBase ∧ r.lossBase = p.now ∧ r.product = product
         ∧ r.category = (if u.kind = .calibration then .calibration else if u.mode = .free then .free else .ticketed)
         ∧ ∃ e ∈ q.au.journal, e.seq = r.seq ∧ ∃ ticket,
             e.body = .pour (some i) t.line u.source (product.bind p.code) u.kind ml (p.now - u.startBase) (u.cause.getD .stationLost)
               u.worst true u.holdExpired ticket
             ∧ (u.ticket = none → ticket = none))
  ∧ (∀ (p : Plant) (a : Nat),
       (∀ i < 96, (p.tap i).station.map (·.1) ≠ some a → ((p.tapLoss a).tap i).pour = (p.tap i).pour)
       ∧ p.OnlyIn [.lm, .tkm, .pe, .cc, .au] (p.tapLoss a)
       ∧ ∀ (taps : List TapInput) (restarted expired : Bool), ∃ r : Plant,
           p.tapJoin a taps restarted expired = (r.tapStatus a taps none expired).refreshTaps (p.tapsOfStation a)
           ∧ (restarted = true → p.OnlyIn [.pe] r
               ∧ ∀ i < 96, r.tap i =
                   if (p.tap i).station.map (·.1) = some a then { p.tap i with late := none } else p.tap i)
           ∧ (restarted = false →
               r = (List.range taps.length).foldl (fun w k => match w.tapAt a k, taps[k]? with
                 | some i, some inp => w.takeLate i inp.count
                 | _, _ => w) p))
  ∧ (∀ (p : Plant) (i : Nat) (c : Count24), i < 96 →
       let t := p.tap i
       let q := p.takeLate i c
       (t.late = none → q = p)
       ∧ ∀ r, t.late = some r →
           let added := (c - r.base).toNat * 1000 / r.factor - r.ml
           (q.tap i).late = none
           ∧ (added = 0 → q = p.setTap i { t with late := none })
           ∧ (added ≠ 0 → p.room = true →
               (∃ e, q.au.journal = p.au.journal ++ [e] ∧ e.body = .amend r.seq i added)
               ∧ q.tap i = { t with late := none }
               ∧ (∀ b v, p.tapTotals i = (b, v) → q.tapTotals i = (min 4294967295 b, min 4294967295 (v + added)))
               ∧ p.TotalsGrown r.product r.category added 0 none q
               ∧ (∀ n, n < 64 → r.source = some n → (q.source n).keg = (p.source n).keg.map fun g =>
                   if g.loadBase ≤ r.startBase then g.drawn added else g)
               ∧ ∀ n, r.source ≠ some n → (q.source n).keg = (p.source n).keg)
           ∧ (added ≠ 0 → p.room = false →
               let pulses := t.residue + (c - r.atLoss).toNat
               let ml := pulses * 1000 / t.factor
               q.au = { p.au with gap := min 65535 (p.au.gap + 1) }
               ∧ q.tap i = { t with
                   late := none, creep := min 4294967295 (t.creep + ml), residue := pulses - (ml * t.factor + 999) / 1000 }))
  ∧ ∀ (i : Nat) (s : State), i < 96 →
    let p := s.plant
    let t := p.tap i
    (∀ d, t.noTicket = some d → ∃ q : Plant, exec (.noTicketDisplayEnd i) s = .next (s.arrived q)
        ∧ q.msc = { p.msc with timeBase := max p.now d } ∧ (q.tap i).noTicket = none ∧ (q.tap i).pour = t.pour
        ∧ (q.tap i).lamp ≠ .noTicket ∧ (∀ j, j ≠ i → q.tap j = p.tap j) ∧ p.OnlyIn [.msc, .pe] q)
    ∧ (∀ u d, t.pour = some u → u.limitEnd = some d → t.state = .pouring → t.line ≠ none → t.cleaning = false →
        p.tapOnline t = true →
        ∃ q : Plant, exec (.pourLimitExpiry i) s = .next (s.arrived q)
          ∧ q.msc = { p.msc with timeBase := max p.now d } ∧ (q.tap i).state = .ending ∧ (q.tap i).valve = .closed
          ∧ (q.tap i).pour = some { u with cause := some .limit, limitEnd := none, endingEnd := some (q.now + 2000) }
          ∧ (∀ j, j ≠ i → q.tap j = p.tap j) ∧ p.OnlyIn [.msc, .pe] q)
    ∧ (∀ u d, t.pour = some u → u.limitEnd = some d →
        exec (.pourLimitExpiry i) s = .next (s.arrived ((p.reach d).takeCause i .limit)))
    ∧ (∀ r, t.late = some r →
        exec (.lateCountExpiry i) s = .next (s.arrived ((p.reach (r.lossBase + 60000)).setTap i { t with late := none })))
    ∧ (∀ nominal deadline d, t.calibration = some (.armed nominal deadline d) →
        exec (.armTimerExpiry i) s = .next (s.arrived ((p.reach d).setTap i { t with calibration := none })))
    ∧ (∀ pulses ml old nominal deadline d, t.calibration = some (.awaiting pulses ml old nominal deadline d) →
        exec (.resultTimerExpiry i) s = .next (s.arrived ((p.reach d).setTap i { t with calibration := none })))
    ∧ (t.noTicket = none → exec (.noTicketDisplayEnd i) s = .next s)
    ∧ (t.pour.bind (·.limitEnd) = none → exec (.pourLimitExpiry i) s = .next s)
    ∧ (t.pour.bind (·.endingEnd) = none → exec (.endingTimerExpiry i) s = .next s)
    ∧ (t.late = none → exec (.lateCountExpiry i) s = .next s)
    ∧ ((∀ nominal deadline d, t.calibration ≠ some (.armed nominal deadline d)) → exec (.armTimerExpiry i) s = .next s)
    ∧ ((∀ pulses ml old nominal deadline d, t.calibration ≠ some (.awaiting pulses ml old nominal deadline d)) →
        exec (.resultTimerExpiry i) s = .next s)

/-- Presses, pours and what a status gives a tap (R31, R33 to R35, R50 to R59, R64, R67, R68, R70, R71, R77, R78, R157). A press on an IDLE
tap starts the armed calibration, a pour in FREE mode, or in TICKET mode the pour of the first ticket in its station's queue that waits for
the tap's product, which is claimed; with no such ticket the lamp shows NO_TICKET for 3 s. With a place granted the pour holds one
reservation more, its record is that of Table 3-4, LM counts one pour more on its source (R6), and an armed calibration is gone (R77); with
none, the first refusal raises JOURNAL_LEVEL REFUSED with the fill, every mapped tap takes the JOURNAL hold, nothing is poured, a
calibration stays armed, and a claimed ticket goes back, or closes when its timer has run out. A status is taken by hold-expired, then tap
by tap: count, valve and cut-off, stall, handle, cap. At its end a pour completes: its volume is the pulses since its base at its own
factor, its POUR entry takes the reserved place as the next entry, the window takes the volume as a pair, or, with 512 held, in its tail
pair (R118), and so do the product of its line, in the category of its kind and mode, and the keg it drew from while that keg stands on the
position (R166; DEDUCED, log 19). Its ticket is judged POURED, SHORT or PARTIAL (R34), and closed, or left PARTIAL with what remains (R27,
R28, R35; Plant.TicketSettled). LM counts one pour less on its source, and the last on a position with close pending writes the KEG_CLOSE
entry, with YIELD_DRIFT outside its bounds, and leaves a position whose keg is gone VACANT (R6, R13, R170); a calibration writes its entry,
and one that reached its target awaits its result. At the end of the ENDING wait, to which the time base is brought (DESIGN CHOICE, log 2),
it completes INCOMPLETE, and CS judges its jobs (DESIGN CHOICE, log 10). A cause that a status gives after its valve input does not complete
the pour in that status (DESIGN CHOICE, log 56). -/
def Obligations.PoursStartWithAReservationAndCompleteIntoIt : Prop :=
  (∀ (p : Plant) (i : Nat) (kind : PourKind) (targetMl ticket : Option Nat), i < 96 →
     let t := p.tap i
     let q := p.tryPour i kind targetMl ticket
     (32 < 2048 - p.fill - p.au.reserved →
       q.au.reserved = p.au.reserved + 1 ∧ q.au.journal = p.au.journal
         ∧ ∃ u, (q.tap i).pour = some u ∧ u.kind = kind ∧ u.targetMl = targetMl ∧ u.ticket = ticket ∧ u.cause = none
             ∧ u.base = t.count.getD 0 ∧ u.startClock = p.clock ∧ u.startBase = p.now ∧ u.mode = t.mode ∧ u.factor = t.factor
             ∧ u.source = t.line.bind p.headOf ∧ u.limitEnd = some (p.now + t.limit * 1000) ∧ u.endingEnd = none
             ∧ u.lastChange = p.now ∧ u.holdExpired = false
             ∧ u.worst = (match (t.line.bind p.lineView).map fun v => p.trunkView v.trunk with
                 | some .normal => .cold | some .hot => .hot | _ => .warm)
             ∧ (∀ ml, targetMl = some ml → u.target = some (t.count.getD 0 + BitVec.ofNat 24 ((ml * t.factor + 999) / 1000)))
             ∧ (targetMl = none → u.target = none)
         ∧ (kind = .calibration → (q.tap i).calibration = none)
         ∧ ∀ n, q.source n =
             if t.line.bind p.headOf = some n then { p.source n with pours := (p.source n).pours + 1 } else p.source n)
     ∧ (¬ 32 < 2048 - p.fill - p.au.reserved →
         q.au.reserved = p.au.reserved ∧ (q.tap i).pour = t.pour ∧ q.lm = p.lm
         ∧ (p.au.refused = false → ∃ l, q.raised = p.raised ++ ⟨.journalLevel, 0, 0, p.fill, p.clock⟩ :: l)
         ∧ (p.au.refused = true → ∀ n ∈ q.raised, n.kind = .journalLevel → n.first = 0 → n ∈ p.raised)
         ∧ q.au.refused = true ∧ (∀ j < 96, (p.tap j).line ≠ none → (q.tap j).holds.journal = true)
         ∧ (t.line ≠ none → t.cleaning = false → t.off = false → p.tapOnline t = true → t.pour = none →
             (q.tap i).state = .held ∧ (q.tap i).calibration = t.calibration)
         ∧ (∀ k r was, ticket = some k → k < 160 → p.ticket k = some r → r.state = .claimed was i →
             let out : Bool := match was with | .queued => r.validity = .out | .part => r.topup = .out
             q.ticket k =
               if out then none else some { r with state := match was with | .queued => .queued | .part => .part })))
  ∧ (∀ (p : Plant) (i : Nat), i < 96 →
       let t := p.tap i
       let r := p.changeTap i fun x => { x with noTicket := none }
       let q := p.takePress i
       (∀ nominal until_ d, t.state = .idle → t.calibration = some (.armed nominal until_ d) →
         q = r.tryPour i .calibration (some nominal) none)
       ∧ (t.state = .idle → (∀ nominal until_ d, t.calibration ≠ some (.armed nominal until_ d)) →
           (t.mode = .free → q = r.tryPour i .normal none none)
           ∧ (∀ a n l x, t.mode = .ticket → t.station = some (a, n) → t.line = some l → p.line l = some x →
               let waits : Nat → Bool := fun k => (p.ticket k).any fun c => (c.state = .queued ∨ c.state = .part) ∧ c.product = x.product
               ((p.queue a).find? waits = none → q = r.changeTap i fun y => { y with noTicket := some (p.now + 3000) })
               ∧ ∀ k c, (p.queue a).find? waits = some k → p.ticket k = some c → ∃ w : Plant,
                   q = w.tryPour i (if c.state = .part then .topup else .normal) (some c.remaining) (some k)
                   ∧ (k < 160 → w.ticket k = some { c with state := .claimed (if c.state = .part then .part else .queued) i })
                   ∧ (∀ m, m ≠ k → w.ticket m = p.ticket m) ∧ w.au = p.au ∧ p.OnlyIn [.tkm, .pe] w))
       ∧ (∀ u, t.state = .pouring → t.pour = some u → q = if u.mode = .ticket then p.takeCause i .stopped else p)
       ∧ (t.state ≠ .idle → t.state ≠ .pouring → q = p)
       ∧ (∀ u, t.state = .pouring → t.pour = some u → p.takeRelease i = if u.mode = .free then p.takeCause i .release else p)
       ∧ (t.state ≠ .pouring → p.takeRelease i = p)
       ∧ ∀ cause,
           (t.state ≠ .pouring → p.takeCause i cause = p)
           ∧ (∀ u, t.state = .pouring → t.line ≠ none → t.cleaning = false → p.tapOnline t = true → t.pour = some u →
               let w := p.takeCause i cause
               (w.tap i).state = .ending ∧ (w.tap i).valve = .closed
               ∧ (w.tap i).pour = some { u with cause := some cause, limitEnd := none, endingEnd := some (p.now + 2000) }
               ∧ (∀ j, j ≠ i → w.tap j = p.tap j) ∧ p.OnlyIn [.pe] w))
  ∧ (∀ (p : Plant) (a : Nat) (taps : List TapInput) (old : Option (List TapInput)) (expired : Bool),
       let r := if expired then (p.tapsOfStation a).foldl (fun w i =>
           (w.setTap i { w.tap i with pour := (w.tap i).pour.map fun u => { u with holdExpired := true } }).takeCause i .holdExpired) p
         else p
       p.tapStatus a taps old expired =
         (List.range taps.length).foldl (fun w k => match w.tapAt a k, taps[k]? with
           | some i, some inp => w.takeTap i inp (old.bind fun l => l[k]?.map (·.pressed)) old.isNone
           | _, _ => w) r)
  ∧ (∀ (p : Plant) (i : Nat), i < 96 →
       let t := p.tap i
       (∀ (inp : TapInput) (before : Option Bool) (initial : Bool),
         p.takeTap i inp before initial =
           ((((p.takeCount i inp.count initial).takeValve i inp.valveOpen inp.cutOff).takeStall i (t.count.any (· ≠ inp.count))).takeHandle i
             before inp.pressed).takeCap i inp.capFitted)
       ∧ (∀ (c : Count24) (initial : Bool),
           let q := p.takeCount i c initial
           (t.count = none ∨ initial = true ∨ t.count = some c → q = p.setTap i { t with count := some c })
           ∧ (∀ last, t.count = some last → initial = false → last ≠ c →
               (t.state = .pouring ∨ t.state = .ending →
                 q = p.setTap i { t with count := some c, pour := t.pour.map fun u => { u with lastChange := p.now } })
               ∧ (t.state = .idle ∨ t.state = .held ∨ t.state = .off → p.live = true →
                   let pulses := t.residue + (c - last).toNat
                   let ml := pulses * 1000 / t.factor
                   q = p.setTap i { t with
                     count := some c, creep := min 4294967295 (t.creep + ml), residue := pulses - (ml * t.factor + 999) / 1000 })
               ∧ (t.state = .unassigned ∨ t.state = .offline ∨ t.state = .cleaning →
                   q = p.setTap i { t with count := some c })))
       ∧ (∀ isOpen cutOff : Bool,
           let r := p.setTap i { t with valveImage := some isOpen }
           let w := if cutOff = true ∧ isOpen = false ∧ (match t.valve with | .openTo _ => true | _ => false) = true then r.takeCause i .target else r
           p.takeValve i isOpen cutOff = if isOpen = false ∧ (w.tap i).state = .ending then w.completePour i false else w)
       ∧ (∀ u, t.pour = some u → ∀ counted : Bool,
           p.takeStall i counted = if counted = false ∧ u.lastChange + 1500 ≤ p.now then p.takeCause i .stall else p)
       ∧ (∀ (before : Option Bool) (pressed : Bool),
           let r := p.setTap i { t with handle := some pressed }
           p.takeHandle i before pressed =
             if before = some false ∧ pressed = true then r.takePress i
             else if before = some true ∧ pressed = false then r.takeRelease i else r)
       ∧ (∀ fitted : Bool,
           let event : Bool := t.state = .cleaning ∧ t.capImage ≠ some fitted
           let free : Bool := event = true ∧ fitted = false ∧ t.released = true
           let r := p.changeTap i fun x =>
             { x with capImage := some fitted, cleaning := x.cleaning && !free, released := x.released && !free }
           p.takeCap i fitted = if event = true ∧ fitted = false then r.capAbsent i else r))
  ∧ (∀ (p : Plant) (i : Nat) (u : Pour) (c : Count24) (incomplete : Bool), i < 96 → (p.tap i).pour = some u → (p.tap i).count = some c →
       let t := p.tap i
       let ml := (c - u.base).toNat * 1000 / u.factor
       let q := p.completePour i incomplete
       (q.tap i).pour = none ∧ q.au.reserved = p.au.reserved - 1 ∧ p.cc.LoadAdded (p.now, ml) q.cc
         ∧ (∃ (e : Entry) (rest : List Entry) (product : Option Nat) (ticket : Option (Word32 × Nat × Outcome)),
             q.au.journal = p.au.journal ++ e :: rest ∧ e.seq = p.au.nextSeq ∧ e.time = p.clock
             ∧ product = t.line.bind (fun l => (p.line l).map (·.product))
             ∧ e.body = .pour (some i) t.line u.source (product.bind p.code) u.kind ml (p.now - u.startBase) (u.cause.getD .target)
                 u.worst incomplete u.holdExpired ticket
             ∧ (u.ticket = none → ticket = none)
             ∧ ∀ k r, u.ticket = some k → p.ticket k = some r →
                 ticket = some (r.reference, r.portion, p.pourOutcome r ml (u.cause.getD .target)))
         ∧ p.TicketSettled u.ticket ml (u.cause.getD .target) q
         ∧ (∀ a b, p.tapTotals i = (a, b) → q.tapTotals i = (min 4294967295 (a + 1), min 4294967295 (b + ml)))
         ∧ p.TotalsGrown ((t.line.bind p.line).map (·.product))
             (if u.kind = .calibration then .calibration else if u.mode = .free then .free else .ticketed) ml 1
             (((u.ticket.bind p.ticket).filter fun r => p.pourOutcome r ml (u.cause.getD .target) = .short).map (·.product)) q
         ∧ (∀ n, n < 64 → u.source = some n →
             let x := p.source n
             let keg := x.keg.map fun g => if g.loadBase ≤ u.startBase then g.drawn ml else g
             q.source n =
               if x.closePending = true ∧ x.pours ≤ 1 then
                 (if x.removed then
                   { x with state := .vacant, keg := none, line := none, closePending := false, removed := false, pours := x.pours - 1 }
                  else { x with keg := keg, closePending := false, pours := x.pours - 1 })
               else { x with keg := keg, pours := x.pours - 1 })
         ∧ (∀ n, u.source ≠ some n → q.source n = p.source n)
         ∧ (∃ (poured closed : Plant) (e : Entry),
             (poured.msc = p.msc ∧ poured.lm.products = p.lm.products ∧ poured.au.journal = p.au.journal ++ [e]
               ∧ poured.au.reserved = p.au.reserved - 1 ∧ poured.au.gap = 0 ∧ poured.au.nextSeq = p.au.nextSeq + 1)
             ∧ (let ends : Nat → Bool := fun n => decide (u.source = some n) && (p.source n).closePending && decide ((p.source n).pours ≤ 1)
                ((∀ n, n < 64 → ends n = false) → closed = poured)
                ∧ ∀ n, n < 64 → ends n = true →
                    poured.KegClosed n ((p.source n).keg.map fun g => if g.loadBase ≤ u.startBase then g.drawn ml else g) closed
                    ∧ closed.msc = p.msc)
             ∧ q.au = (if u.kind = .calibration then closed.record (.calibration i ((c - u.base).toNat) ml u.factor) else closed).au
             ∧ ∀ k ∈ closed.raised, k ∈ q.raised)
         ∧ (u.kind = .calibration → u.cause = some .target →
             (q.tap i).calibration = some (.awaiting ((c - u.base).toNat) ml u.factor (u.targetMl.getD 0) (p.clock + 600#32) (p.now + 600000))
             ∧ ⟨.calibrationReady, i, ml, u.targetMl.getD 0, p.clock⟩ ∈ q.raised)
         ∧ p.OnlyIn [.lm, .tkm, .pe, .cc, .au] q)
  ∧ (∀ (p : Plant) (r : Ticket) (ml : Nat) (cause : EndCause),
       let tolerance := ((p.product r.product).map (·.tolerance)).getD 15
       let late : Bool := match r.state with | .claimed .part _ => decide (r.topup = .out) | _ => false
       p.pourOutcome r ml cause =
         if r.remaining ≤ ml + tolerance then .poured
         else if cause = .cancelled ∨ p.tkm.window = 0 ∨ late = true then .short
         else .part)
  ∧ ∀ (i : Nat) (s : State) (u : Pour) (d : Nat), (s.plant.tap i).pour = some u → u.endingEnd = some d →
      exec (.endingTimerExpiry i) s = .next (s.arrived ((s.plant.reach d).completePour i true).csSettle)

/-! ### The station bus (chapter 5) -/

/-- DEFINE_STATION (R86, R3, R40). A definition already held returns a MISMATCH station to ABSENT, and makes no FULL or IN_USE check (DESIGN
CHOICE, log 66). Any other is taken as follows: the owners have the loss report of an ACTIVE station; the address enters ABSENT, or becomes
unused, with a fresh entry, an empty queue and no product mark, unless it stays a TAP station, which keeps both (DESIGN CHOICE, log 55); its
old positions are unbound and out of every chain, VACANT with no keg, and its new ones are bound; its taps are set afresh, as
TapUpkeepFollowsTheTables spells it (R42, R86); and a STATION_STATE notice with cause REDEFINED follows. A position keeps LM's count of the
pours that name it (R6). An IN_USE refusal names field 1, also one for a lowered tap count, and field 4 for a position block that another
station holds (DESIGN CHOICE, log 75). CS then judges its jobs (DESIGN CHOICE, log 10). That the notice of a removal carries 255 as its
state is the model's choice (DESIGN CHOICE, log 20). -/
def Obligations.StationDefinitionIsTakenOrRefused : Prop :=
  ∀ (h : ReqHdr) (address : Nat) (kind : EnumField StationType) (taps block : Nat) (s : State), Ready Kind.defineStation h s →
    let p := s.plant
    let x := p.station address
    let t := enumVal? kind
    let changes : Bool := !(x.kind = t ∧ (t = some .tap → x.taps = taps) ∧ (t = some .cellar → x.block = block))
    let others : StationType → Nat := fun k =>
      ((List.range 31).filter fun a => 1 ≤ a ∧ a ≠ address ∧ (p.station a).kind = some k).length
    ∃ q : Plant,
      exec (.defineStation h address kind taps block) s =
        .next (s.checked Kind.defineStation h
          [(address < 1 ∨ 30 < address, .badParam, 1), (wrongIfGiven kind, .badParam, 2),
           (t = some .tap ∧ (taps < 1 ∨ 4 < taps), .badParam, 3), (t = some .cellar ∧ 3 < block, .badParam, 4),
           (changes && (match t with
             | some .tap => 24 ≤ others .tap
             | some .cellar => 4 ≤ others .cellar
             | some .cooling => 1 ≤ others .cooling
             | some .cleaning => 1 ≤ others .cleaning
             | none => false), .full, 2),
           (p.live = true ∧ x.kind = some .cooling ∧ t ≠ some .cooling, .refusedState, 2),
           (changes = true ∧ t = some .cellar ∧ (List.range 31).any fun a =>
              1 ≤ a ∧ a ≠ address ∧ (p.station a).kind = some .cellar ∧ (p.station a).block = block, .inUse, 4),
           (changes &&
             ((p.live = true ∧ x.kind = some .cellar
                ∧ ((List.range 64).any (fun i => ((p.source i).bound.any fun b => b.1 = address) && (p.source i).state ≠ .vacant)
                  ∨ (List.range 48).any fun l => (p.line l).any fun y => y.station = address))
              ∨ (x.kind = some .tap ∧ t ≠ some .tap ∧ !(p.queue address).isEmpty)
              ∨ (p.live = true ∧ x.kind = some .tap
                ∧ (List.range 96).any fun i => (p.tap i).station.any fun b => b.1 = address ∧ (t ≠ some .tap ∨ taps ≤ b.2))
              ∨ (p.live = true ∧ x.kind = some .cleaning ∧ !p.cs.jobs.isEmpty)), .inUse, 1)]
          (s.answered Kind.defineStation h [] (if changes then q.csSettle else q)))
      ∧ (1 ≤ address → address ≤ 30 →
          (∀ a, a ≠ address → q.station a = p.station a)
          ∧ (changes = false →
              q.station address = (if x.state = .mismatch then { x with state := .absent } else x) ∧ p.OnlyIn [.sbc] q
              ∧ q.raised = p.raised)
          ∧ (changes = true →
              let lost : Plant := if p.active address then (p.setStation address { x with state := .absent }).lossReport address else p
              let old : Nat → Bool := fun i => decide ((lost.source i).bound.map (·.1) = some address)
              let fresh : Nat → Bool := fun i => decide (t = some .cellar ∧ 16 * block ≤ i ∧ i < 16 * block + 16)
              q.station address =
                (match t with
                 | none => Station.unused
                 | some k => { Station.unused with
                     kind := some k, taps := if k = .tap then taps else 0, block := if k = .cellar then block else 0,
                     reported := x.reported })
              ∧ (if x.kind = some .tap ∧ t = some .tap then
                  q.queue address = lost.queue address ∧ q.marksOf address = lost.marksOf address
                 else q.queue address = [] ∧ q.marksOf address = 0)
              ∧ (∀ a, a ≠ address → q.queue a = lost.queue a ∧ q.marksOf a = lost.marksOf a)
              ∧ (∀ i, i < 64 → q.source i =
                  if fresh i then { Source.unbound with bound := some (address, i - 16 * block), pours := (lost.source i).pours }
                  else if old i then { Source.unbound with pours := (lost.source i).pours }
                  else lost.source i)
              ∧ (∀ l, q.line l = (lost.line l).map fun y => { y with chain := y.chain.filter fun i => !old i })
              ∧ (∀ i, (∀ k, (p.tap i).station ≠ some (address, k)) → q.tap i = lost.tap i)
              ∧ (∀ i k, i < 96 → (p.tap i).station = some (address, k) →
                  q.tap i = (({ q with pe := { q.pe with taps := lost.pe.taps } } : Plant).refreshTap i).tap i
                  ∧ ((lost.tap i).line ≠ none → (lost.tap i).cleaning = false → (lost.tap i).off = false → (q.tap i).state = .offline))
              ∧ (q.au = lost.au ∧ q.cc = lost.cc ∧ q.cs = lost.cs ∧ (∀ i, q.ticket i = lost.ticket i)
                  ∧ ∃ n, q.raised = lost.raised ++ n)
              ∧ (x.kind ≠ some .tap → ∀ i, (q.source i).pours = (p.source i).pours)
              ∧ ⟨.stationState, address, if t.isSome then 0 else 255, 2, p.clock⟩ ∈ q.raised ∧ q.msc = p.msc))

/-- RESCAN_STATION, TRACE_STATION, SCAN_BUS and the scan's end (R99, R100, R103). A second RESCAN_STATION before the initial values
arrive changes nothing. The layout of the items in the scan's reply is the model's choice (DESIGN CHOICE, log 15); the detail of
SCAN_BUS's refusal is a free value (DESIGN CHOICE, log 7); a SCAN_END before every address has been asked, or in an exchange, does not
arise and changes nothing (DESIGN CHOICE, log 3). -/
def Obligations.RescanTraceAndScan : Prop :=
  ∀ (h : ReqHdr) (s : State),
    let p := s.plant
    (∀ address, Ready Kind.rescanStation h s →
      exec (.rescanStation h address) s =
        .next (s.checked Kind.rescanStation h
          [((p.station address).kind = none, .notFound, 1), (!p.active address, .refusedState, 1)]
          (s.answered Kind.rescanStation h []
            (p.setStation address
              (if (p.station address).initialPending then p.station address
               else { p.station address with dueNext := true, initialPending := true })))))
    ∧ (∀ address on, Ready Kind.traceStation h s → ∃ q : Plant,
      exec (.traceStation h address on) s =
        .next (s.checked Kind.traceStation h [((p.station address).kind = none, .notFound, 1), (wrongEnum on, .badParam, 2)]
          (s.answered Kind.traceStation h [] q))
      ∧ (on = .val true → ∀ a, 1 ≤ a → a ≤ 30 → q.station a = { p.station a with trace := a = address })
      ∧ (on = .val false → ∀ a, 1 ≤ a → a ≤ 30 →
          q.station a = { p.station a with trace := (p.station a).trace && decide (a ≠ address) })
      ∧ p.OnlyIn [.sbc] q)
    ∧ (Ready Kind.scanBus h s →
      exec (.scanBus h) s =
        .next (s.checked Kind.scanBus h [(p.sbc.scan.isSome, .inUse, Config.noFieldDetail)]
          (s.replied h ⟨replyKind 21, h.tag, false, .ok, 0, [], none⟩ { p with sbc := { p.sbc with scan := some [] } })))
    ∧ (∀ n l, p.sbc.phase = .scanning n → 30 < n → p.sbc.exchange = none → p.sbc.scan = some l →
        let replies := s.hl.replies.map fun r : Reply => if r.made then r else { r with made := true, data := scanData l }
        exec .scanEnd s = .next { s with
          hl := { s.hl with replies := replies, transmitter := transmitterOf replies }
          plant := { p with sbc := { p.sbc with scan := none, phase := .visit 1 } } })
    ∧ ((p.sbc.exchange ≠ none ∨ ∀ n, p.sbc.phase = .scanning n → n ≤ 30) → exec .scanEnd s = .next s)

/-- A visit (R88, R89, R94), and the next DESCRIBE of a scan (R103). A STATION_VISIT while an exchange is under way or CLOSE_ALL is due
does not arise and changes nothing (DESIGN CHOICE, log 3). A frame is the address with its mark bit set, then the length of the body,
the body and the CRC of both with it clear, every stop bit 1 (R82, R83); its body starts with the kind byte of Table 5-2 (R196). A
character is 11 bits: a start bit 0, the data bits from the least significant on, the mark bit and the stop bit (R82). A station's poll
class is FAST by R89: a TAP station while a tap of it is POURING, ENDING or CLEANING, a CELLAR station while a line of it is in
CHANGEOVER or under beer return, a paused one too (DESIGN CHOICE, log 67), the CLEANING station while a circuit is BUSY. A POLL carries
the image of the station's type as its owners wrote it; in CONFIG every valve is CLOSED, every stage and pump OFF and the mode LOCAL, and
under stop every valve CLOSED and every circuit pump off (R101, R102), laid out by Table 11-6, with two-valued fields in the order of
log 34 (DESIGN CHOICE). A tap index that no tap names is sent CLOSED (R48), and OFF by the model's choice (DESIGN CHOICE, log 90). That a
station due next round is polled at a visit still to come in the present round is the model's choice (DESIGN CHOICE, log 58). -/
def Obligations.VisitSendsTheFrameOfTheStationsState : Prop :=
  (∀ f : BusFrame,
     let body := f.body
     let n := BitVec.ofNat 8 body.length
     f.characters = ⟨BitVec.ofNat 8 f.address, true, true⟩
         :: (n :: (body ++ leBytes 2 (crc16 (n :: body)).toNat)).map (fun b => ⟨b, false, true⟩)
       ∧ (f.address, body.head?) = match f with
         | .describe a => (a, some 1#8)
         | .poll a _ => (a, some 2#8)
         | .attention _ => (0, some 3#8)
         | .closeAll => (0, some 4#8))
  ∧ (∀ c : BusChar,
       c.bits.toList = false :: (List.range 8).map (fun k => c.value.getLsbD k) ++ [c.mark, c.stop] ∧ charOf c.bits = c)
  ∧ (∀ (p : Plant) (a : Nat),
       (p.fast a = true ↔
         ((p.station a).kind = some .tap ∧ ∃ i k, i < 96 ∧ (p.tap i).station = some (a, k)
             ∧ ((p.tap i).state = .pouring ∨ (p.tap i).state = .ending ∨ (p.tap i).state = .cleaning))
         ∨ ((p.station a).kind = some .cellar ∧ ∃ l x, p.line l = some x ∧ x.station = a
             ∧ (x.state = .changeover ∨ ∃ j ∈ p.cs.jobs, j.returnLine = some l))
         ∨ ((p.station a).kind = some .cleaning ∧ ∃ c, c < 2 ∧ (p.circuit c).state = .busy)))
  ∧ (∀ (p : Plant) (a : Nat),
       let live : Bool := p.msc.mode = .live
       let flows : Bool := p.msc.mode = .live ∧ p.msc.stop = .clear
       ((p.station a).kind = some .tap →
          p.compose a = .tap ((List.range (p.station a).taps).map fun k =>
            match (List.range 96).find? fun i => (p.tap i).station = some (a, k) with
            | some i => (if flows then (p.tap i).valve else .closed, (p.tap i).lamp)
            | none => (.closed, .off)))
       ∧ ((p.station a).kind = some .cellar →
          p.compose a = .cellar ((List.range 12).map fun k =>
            match (List.range 48).findSome? fun l => (p.line l).filter fun x => x.station = a ∧ x.index = k with
            | some x => x.outlet
            | none => ⟨none, .closed, false⟩))
       ∧ ((p.station a).kind = some .cooling →
          p.compose a = .cooling (p.cc.stages.toList.map fun x => live && x.command) (p.cc.trunks.toList.map fun x => live && x.pump)
            (live && p.cc.remote))
       ∧ ((p.station a).kind = some .cleaning →
          p.compose a = .cleaning (p.cs.circuits.toList.map fun c => if flows then c.out else { c.out with pump := false })))
  ∧ (∀ a : Nat,
       let onOff : Bool → List Byte := fun b => leBytes 1 (if b then 0 else 1)
       (∀ taps, (BusFrame.poll a (.tap taps)).body = 2#8 :: taps.flatMap fun e =>
          (match e.1 with
           | .closed => leBytes 1 0 ++ leBytes 3 0
           | .openTo n => leBytes 1 1 ++ leBytes 3 n.toNat
           | .openHold => leBytes 1 2 ++ leBytes 3 0)
            ++ leBytes 1 (match e.2 with | .off => 0 | .ready => 1 | .pouring => 2 | .held => 3 | .noTicket => 4 | .cap => 5))
       ∧ (∀ outlets, (BusFrame.poll a (.cellar outlets)).body = 2#8 :: outlets.flatMap fun o =>
            leBytes 1 (o.coupler.getD 255) ++ leBytes 1 (match o.route with | .closed => 0 | .supply => 1 | .clean => 2) ++ onOff o.vent)
       ∧ (∀ stages pumps remote, (BusFrame.poll a (.cooling stages pumps remote)).body =
            2#8 :: (stages.flatMap onOff ++ pumps.flatMap onOff ++ leBytes 1 (if remote then 1 else 0)))
       ∧ (∀ circuits, (BusFrame.poll a (.cleaning circuits)).body = 2#8 :: circuits.flatMap fun o =>
            onOff o.pump ++ leBytes 1 (match o.medium with | none => 0 | some .water => 1 | some .caustic => 2 | some .acid => 3)
              ++ leBytes 1 (if o.drain then 1 else 0) ++ leBytes 4 o.threshold ++ leBytes 1 (o.trunk.getD 255)))
  ∧ ∀ s : State,
    let p := s.plant
    (∀ n, 1 ≤ n → n ≤ 30 → p.sbc.phase = .visit n → p.sbc.exchange = none → p.sbc.closeAllDue = false → ∃ q : Plant,
      exec .stationVisit s = .next (s.arrived q)
      ∧ q.sbc.phase = (if n < 30 then .visit (n + 1) else .calls 0) ∧ q.sbc.round = p.sbc.round
      ∧ (∀ a, a ≠ n → q.station a = p.station a) ∧ p.OnlyIn [.sbc] q ∧ q.raised = p.raised
      ∧ (let x := p.station n
         let silent := q.sbc.exchange = none ∧ q.station n = x ∧ q.sbc.lastFrame = p.sbc.lastFrame
         let due := 0 < x.misses ∨ x.dueNext = true ∨ p.fast n = true ∨ p.sbc.round % 4 = n % 4
         (x.kind = none ∨ x.state = .mismatch → silent)
         ∧ (x.kind ≠ none → (x.state = .absent ∨ x.state = .lost) → p.sbc.round = n % 16 →
             q.sbc.exchange = some ⟨n, .describe⟩ ∧ q.sbc.lastFrame = some (.describe n)
             ∧ q.station n = { x with
                 state := .joining, joinedFrom := some (if x.state = .lost then .lost else .absent), descriptorAccepted := false,
                 misses := 0 })
         ∧ (x.kind ≠ none → (x.state = .absent ∨ x.state = .lost) → p.sbc.round ≠ n % 16 → silent)
         ∧ (x.kind ≠ none → x.state = .joining →
             if x.descriptorAccepted then q.sbc.exchange = some ⟨n, .poll⟩ ∧ q.station n = { x with dueNext := false }
               ∧ q.sbc.lastFrame = some (.poll n (p.compose n))
             else q.sbc.exchange = some ⟨n, .describe⟩ ∧ q.sbc.lastFrame = some (.describe n) ∧ q.station n = x)
         ∧ (x.kind ≠ none → x.state = .active → due →
             q.sbc.exchange = some ⟨n, .poll⟩ ∧ q.station n = { x with dueNext := false }
             ∧ q.sbc.lastFrame = some (.poll n (p.compose n)))
         ∧ (x.kind ≠ none → x.state = .active → ¬ due → silent)))
    ∧ (∀ n, n ≤ 30 → p.sbc.phase = .scanning n → p.sbc.exchange = none → p.sbc.closeAllDue = false →
        exec .stationVisit s = .next (s.arrived { p with sbc := { p.sbc with
          phase := .scanning (n + 1), exchange := some ⟨n, .scan⟩, lastFrame := some (.describe n) } }))
    ∧ (p.sbc.exchange ≠ none ∨ p.sbc.closeAllDue = true → exec .stationVisit s = .next s)

/-- An attention call (R90, R91): the slot reads the lowest address contending, 31 when none contends; a slot that reads 31 or 0 ends the
round, any other serves its winner by the winner's state, and the round ends after the winner of the fourth call has been served (R90). A
DESCRIBE that clears an attention request and has no reply ends, and CS then judges its jobs (DESIGN CHOICE, log 10). An ATTENTION_CALL
before the visits are over, after the fourth call, in an exchange or while CLOSE_ALL is due does not arise and changes nothing (DESIGN
CHOICE, log 3). -/
def Obligations.AttentionCallServesTheLowestContender : Prop :=
  (slotRead 5 [] = 31 ∧ ∀ (l : List (BitVec 5)) (a : BitVec 5), a ∈ l → (∀ b ∈ l, a.toNat ≤ b.toNat) → slotRead 5 l = a.toNat)
  ∧ (∀ p : Plant,
      (∀ k, p.sbc.phase = .calls k → 4 ≤ k →
        p.endExchange = { p with sbc := { p.sbc with
          exchange := none, round := (p.sbc.round + 1) % 16, phase := if p.sbc.scan.isSome then .scanning 1 else .visit 1 } })
      ∧ ((∀ k, p.sbc.phase = .calls k → k < 4) → p.endExchange = { p with sbc := { p.sbc with exchange := none } }))
  ∧ (∀ (s : State) (a : Nat), s.plant.sbc.exchange = some ⟨a, .clearAttention⟩ →
      exec (.replyMiss ⟨true, []⟩) s = .next (s.arrived s.plant.endExchange.csSettle))
  ∧ ∀ (l : List (BitVec 5)) (s : State),
    let p := s.plant
    let w := slotRead 5 l
    let x := p.station w
    (∀ k, k < 4 → p.sbc.phase = .calls k → p.sbc.exchange = none → p.sbc.closeAllDue = false →
      (w = 31 ∨ w = 0 →
        exec (.attentionCall l) s = .next (s.arrived { p with sbc := { p.sbc with
          lastFrame := some (.attention k), round := (p.sbc.round + 1) % 16,
          phase := if p.sbc.scan.isSome then .scanning 1 else .visit 1 } }))
      ∧ (w ≠ 31 → w ≠ 0 → ∃ q : Plant,
          exec (.attentionCall l) s = .next (s.arrived q)
          ∧ q.sbc.phase = .calls (k + 1) ∧ q.sbc.round = p.sbc.round ∧ (∀ a, a ≠ w → q.station a = p.station a)
          ∧ p.OnlyIn [.sbc] q ∧ q.raised = p.raised
          ∧ (x.kind = none ∨ x.state = .mismatch → q.sbc.exchange = some ⟨w, .clearAttention⟩ ∧ q.station w = x)
          ∧ (x.kind ≠ none → x.state = .active → q.sbc.exchange = some ⟨w, .poll⟩ ∧ q.station w = x)
          ∧ (x.kind ≠ none → x.state = .joining →
              q.sbc.exchange = some ⟨w, if x.descriptorAccepted then .poll else .describe⟩ ∧ q.station w = x)
          ∧ (x.kind ≠ none → x.state = .absent ∨ x.state = .lost →
              q.sbc.exchange = some ⟨w, .describe⟩
              ∧ q.station w = { x with
                  state := .joining, joinedFrom := some (if x.state = .lost then .lost else .absent), descriptorAccepted := false,
                  misses := 0 })))
    ∧ (p.sbc.exchange ≠ none ∨ p.sbc.closeAllDue = true ∨ (∀ k, p.sbc.phase = .calls k → 4 ≤ k) →
        exec (.attentionCall l) s = .next s)

/-- CLOSE_ALL and a miss (R82, R84, R92, R96, R102, R103). CLOSE_ALL goes once it is due and the exchange has ended, and a POLL that waited
behind it follows. What comes in an exchange is a miss when it is late or does not read as the reply awaited: a reply read has every stop
bit 1, the mark bit on its address alone, the address asked, and the CRC of its length and body; and such characters are read when the body
is a STATUS of the station's defined type (Table 11-7), after a POLL, or a DESCRIPTOR (Table 11-5), after a DESCRIBE. The characters of a
late reply count as noise of the miss (DESIGN CHOICE, log 72), and characters behind the CRC of a good reply make it a miss (DESIGN CHOICE,
log 91). The start bit of a character is not judged (DESIGN CHOICE, log 96). A miss counts for a station that is ACTIVE or JOINING: the
third in a row loses an ACTIVE station, which is reported to its owner and then to CS (R87; the order is a DESIGN CHOICE, log 94); the
second returns a JOINING one; a miss of a scan, or of a DESCRIBE that clears an attention request, counts nowhere. A REPLY_MISS without an
exchange, or whose characters read as the reply awaited, and a CLOSE_ALL that is not due or falls in an exchange, do not arise and change
nothing (DESIGN CHOICE, log 3). A station lost, or returned, keeps its consecutive misses (DESIGN CHOICE, log 57). CS judges its jobs at the
arrival's end (DESIGN CHOICE, log 10). -/
def Obligations.CloseAllAndMissesAreTaken : Prop :=
  (∀ (p : Plant) (e : Exchange) (l : List BusChar) (r : BusReply), p.readReply e l = some r →
     ∃ body : List Byte,
       let n := BitVec.ofNat 8 body.length
       body.length < 256
       ∧ l = ⟨BitVec.ofNat 8 e.address, true, true⟩
           :: (n :: (body ++ leBytes 2 (crc16 (n :: body)).toNat)).map (fun b => ⟨b, false, true⟩)
       ∧ (∀ x, r = .status x → e.purpose = .poll ∧ body.head? = some 130#8 ∧ x.address = e.address
           ∧ ((p.station e.address).kind = some .tap ∧ body.length = 2 + 7 * (p.station e.address).taps
             ∨ (p.station e.address).kind = some .cellar ∧ body.length = 30
             ∨ (p.station e.address).kind = some .cooling ∧ body.length = 34
             ∨ (p.station e.address).kind = some .cleaning ∧ body.length = 15))
       ∧ ∀ a d, r = .descriptor a d → e.purpose ≠ .poll ∧ body.head? = some 129#8 ∧ a = e.address ∧ body.length = 9)
  ∧ (∀ (p : Plant) (e : Exchange) (rest : List Byte), e.address < 256 → rest.length < 255 →
      let x := p.station e.address
      let at_ : Nat → Byte := fun k => rest.getD k 0#8
      let bit : Nat → Bool := fun k => at_ k != 0#8
      let temp : Nat → Int := fun k => (at_ (k + 1) ++ at_ k).toInt
      let count : Nat → Count24 := fun k => at_ (k + 2) ++ at_ (k + 1) ++ at_ k
      let framed : Byte → List BusChar := fun kind =>
        let n := BitVec.ofNat 8 (rest.length + 1)
        ⟨BitVec.ofNat 8 e.address, true, true⟩
          :: (n :: (kind :: rest ++ leBytes 2 (crc16 (n :: kind :: rest)).toNat)).map (fun b => ⟨b, false, true⟩)
      let reads : InputImage → Prop := fun image => p.readReply e (framed 130#8) =
        some (.status ⟨e.address, (at_ 0).getLsbD 0, (at_ 0).getLsbD 1, (at_ 0).getLsbD 2, image⟩)
      (e.purpose = .poll →
        (x.kind = some .tap → rest.length = 1 + 7 * x.taps →
          reads (.tap ((List.range x.taps).map fun i =>
            ⟨bit (1 + 7 * i), bit (2 + 7 * i), bit (3 + 7 * i), bit (4 + 7 * i), count (5 + 7 * i)⟩)))
        ∧ (x.kind = some .cellar → rest.length = 29 →
            reads (.cellar (Vector.ofFn fun i => bit (1 + i)) (Vector.ofFn fun i => bit (17 + i))))
        ∧ (x.kind = some .cooling → rest.length = 33 →
            reads (.cooling (temp 1) (Vector.ofFn fun i => bit (3 + i)) (Vector.ofFn fun i => bit (6 + i))
              (Vector.ofFn fun i => temp (9 + 2 * i)) (Vector.ofFn fun i => bit (25 + i))))
        ∧ (x.kind = some .cleaning → rest.length = 14 →
            reads (.cleaning (Vector.ofFn fun i => bit (1 + i))
              (Vector.ofFn fun i => ⟨bit (4 + 5 * i), count (5 + 5 * i), bit (8 + 5 * i)⟩))))
      ∧ (e.purpose ≠ .poll → rest.length = 8 →
          p.readReply e (framed 129#8) = some (.descriptor e.address
            ⟨(match (at_ 0).toNat with
              | 0 => .val .tap | 1 => .val .cellar | 2 => .val .cooling | 3 => .val .cleaning | 255 => .absent | n => .bad n),
             (at_ 1).getLsbD 0, (at_ 2).toNat, (at_ 3).toNat, (at_ 4).toNat, (at_ 5).toNat, (at_ 6).toNat, (at_ 7).toNat⟩)))
  ∧ (∀ (p : Plant) (a : Nat),
       (p.station a).kind = some .tap → p.lossReport a = (p.tapLoss a).csLoss a)
  ∧ (∀ (p : Plant) (a : Nat), (p.station a).kind = some .cellar → p.lossReport a = (p.cellarLoss a).csLoss a)
  ∧ (∀ (p : Plant) (a : Nat), (p.station a).kind = some .cooling → p.lossReport a = p.coolingLoss.csLoss a)
  ∧ (∀ (p : Plant) (a : Nat), (p.station a).kind = some .cleaning → p.lossReport a = p.csLoss a)
  ∧ ∀ s : State,
    let p := s.plant
    (p.sbc.closeAllDue = true → p.sbc.exchange = none → p.sbc.owedPoll = none →
      exec .closeAll s = .next (s.arrived { p with sbc := { p.sbc with closeAllDue := false, lastFrame := some .closeAll } }))
    ∧ (∀ a, p.sbc.closeAllDue = true → p.sbc.exchange = none → p.sbc.owedPoll = some a → (p.station a).state = .joining →
        (p.station a).descriptorAccepted = true → ∃ q : Plant,
        exec .closeAll s = .next (s.arrived q) ∧ q.sbc.closeAllDue = false ∧ q.sbc.owedPoll = none
          ∧ q.sbc.exchange = some ⟨a, .poll⟩ ∧ p.OnlyIn [.sbc] q)
    ∧ (p.sbc.closeAllDue = false ∨ p.sbc.exchange ≠ none → exec .closeAll s = .next s)
    ∧ (p.sbc.exchange = none → ∀ late l, exec (.replyMiss ⟨late, l⟩) s = .next s)
    ∧ (∀ e r l, p.sbc.exchange = some e → p.readReply e (l.map charOf) = some r → exec (.replyMiss ⟨false, l⟩) s = .next s)
    ∧ ∀ (e : Exchange) (late : Bool) (l : List BusBits), p.sbc.exchange = some e → late = true ∨ p.readReply e (l.map charOf) = none →
        ∃ q : Plant,
        exec (.replyMiss ⟨late, l⟩) s = .next (s.arrived q.csSettle) ∧ q.sbc.exchange = none ∧ q.msc = p.msc
        ∧ q.sbc.round = p.endExchange.sbc.round ∧ q.sbc.phase = p.endExchange.sbc.phase
        ∧ (∀ a, a ≠ e.address → q.station a = p.station a)
        ∧ (let x := p.station e.address
           let y := q.station e.address
           (e.purpose = .scan ∨ e.purpose = .clearAttention ∨ x.kind = none → y = x ∧ p.OnlyIn [.sbc] q)
           ∧ (1 ≤ e.address → e.address ≤ 30 → (e.purpose = .poll ∨ e.purpose = .describe) → x.kind ≠ none →
               (x.state = .active ∨ x.state = .joining →
                 y.totalMisses = min 65535 (x.totalMisses + 1) ∧ y.misses = x.misses + 1
                 ∧ y.noise = if l = [] then x.noise else min 65535 (x.noise + 1))
               ∧ (x.state = .active → x.misses + 1 < 3 →
                   y.state = .active ∧ y.inputs = x.inputs ∧ y.dueNext = x.dueNext ∧ p.OnlyIn [.sbc] q)
               ∧ (x.state = .active → 3 ≤ x.misses + 1 →
                   y.state = .lost ∧ y.inputs = none ∧ y.dueNext = false ∧ y.joinedFrom = none ∧ y.descriptorAccepted = false
                   ∧ q = (((p.setStation e.address y).lossReport e.address).raise .stationState e.address 3 0).endExchange)
               ∧ (x.state = .joining → x.misses + 1 < 2 →
                   y.state = .joining ∧ y.joinedFrom = x.joinedFrom ∧ y.descriptorAccepted = x.descriptorAccepted)
               ∧ (x.state = .joining → 2 ≤ x.misses + 1 →
                   y.state = (if x.joinedFrom = some .lost then .lost else .absent) ∧ y.joinedFrom = none ∧ q.raised = p.raised)))

/-- A STATUS accepted (R87, R93, R96 to R98, R100): what it does to the station's entry, by the station's state and the restarted flag, and
what is then delivered: from an ACTIVE station a status arrival with the image it is compared with, or initial values; from a JOINING one
the join report with its initial values; at a restart the loss report. Each goes to the owner of the station's type. A STATUS that is not
the reply awaited is a miss with characters (R84); one without an exchange does not arise and changes nothing (DESIGN CHOICE, log 3). From a
traced station each raises one INPUT_TRACE notice for each input, whatever the station's state; from one that is neither ACTIVE nor JOINING,
as one redefined in the exchange, nothing else follows (DESIGN CHOICE, log 97). The second detail of the ACTIVE notice is a free value
(DESIGN CHOICE, log 8). A traced temperature stands in its INPUT_TRACE notice as a 32-bit number in two's complement (DESIGN CHOICE, log
44). CS judges its jobs at the arrival's end (DESIGN CHOICE, log 10). -/
def Obligations.AcceptedStatusMovesTheStation : Prop :=
  (∀ (p : Plant) (a : Nat) (expired restarted : Bool) (old : Option InputImage),
     (∀ taps, p.statusArrival a (.tap taps) old expired =
         p.tapStatus a taps (match old with | some (.tap l) => some l | _ => none) expired
       ∧ p.joinReport a (.tap taps) restarted expired = p.tapJoin a taps restarted expired)
     ∧ (∀ kegs fobs, p.statusArrival a (.cellar kegs fobs) old expired =
         p.cellarStatus a kegs fobs (match old with | some (.cellar k f) => some (k, f) | _ => none)
       ∧ p.joinReport a (.cellar kegs fobs) restarted expired = p.cellarJoin a kegs fobs)
     ∧ (∀ bath running tripped returns pumps,
         p.statusArrival a (.cooling bath running tripped returns pumps) old expired =
           p.coolingStatus bath running tripped returns pumps
         ∧ p.joinReport a (.cooling bath running tripped returns pumps) restarted expired =
           p.coolingJoin.coolingStatus bath running tripped returns pumps)
     ∧ ∀ tanks circuits, p.statusArrival a (.cleaning tanks circuits) old expired = p.cleaningStatus tanks circuits old.isNone
       ∧ p.joinReport a (.cleaning tanks circuits) restarted expired = p.cleaningStatus tanks circuits true)
  ∧ (∀ (p : Plant) (a : Nat) (image : InputImage) (old : Option InputImage) (b c : Bool),
      ∀ q ∈ [p.statusArrival a image old b, p.joinReport a image b c, p.lossReport a], q.sbc = p.sbc ∧ q.msc = p.msc)
  ∧ ∀ (r : StatusReply) (s : State),
    let p := s.plant
    (p.sbc.exchange = none → exec (.statusAccepted r) s = .next s)
    ∧ (∀ e c, p.sbc.exchange = some e →
        (e.purpose ≠ .poll ∨ r.address ≠ e.address ∨ imageFits (p.station e.address) r.image = false) →
        exec (.statusAccepted r) s = exec (.replyMiss ⟨true, [c]⟩) s)
    ∧ ∀ a, 1 ≤ a → a ≤ 30 → p.sbc.exchange = some ⟨a, .poll⟩ → r.address = a → imageFits (p.station a) r.image = true →
        let x := p.station a
        let traced : Plant := if x.trace then
            { p with raised := p.raised ++ (inputValues r.image).zipIdx.map fun v => ⟨.inputTrace, a, v.2, v.1, p.clock⟩ }
          else p
        (x.state = .active → r.restarted = false →
          let initial : Bool := x.initialPending && !p.fast a
          let y : Station := { x with
            misses := 0, dueNext := x.dueNext || r.attention, inputs := some r.image, initialPending := x.initialPending && p.fast a }
          exec (.statusAccepted r) s = .next (s.arrived
            ((traced.setStation a y).statusArrival a r.image (if initial then none else x.inputs) r.holdExpired).endExchange.csSettle))
        ∧ (x.state = .active → r.restarted = true →
          let lost : Station := { x with
            restarts := min 65535 (x.restarts + 1), restartSinceLoss := true, state := .lost, inputs := none, misses := 0,
            initialPending := false }
          let y : Station := { lost with state := .joining, joinedFrom := some .lost, descriptorAccepted := false }
          exec (.statusAccepted r) s = .next (s.arrived
            ((((traced.setStation a lost).lossReport a).raise .stationState a 3 1).setStation a y).endExchange.csSettle))
        ∧ (x.state = .joining → r.restarted = false →
          let joined : Station := { x with
            state := .active, joinedFrom := none, descriptorAccepted := false, misses := 0, inputs := some r.image }
          exec (.statusAccepted r) s = .next (s.arrived
            ((((traced.setStation a joined).joinReport a r.image x.restartSinceLoss r.holdExpired).raise .stationState a 2
              Config.activeDetail).setStation a { joined with restartSinceLoss := false }).endExchange.csSettle))
        ∧ (x.state = .joining → r.restarted = true →
          exec (.statusAccepted r) s = .next (s.arrived
            (traced.setStation a { x with
              restarts := min 65535 (x.restarts + 1), restartSinceLoss := true, descriptorAccepted := false,
              misses := 0 }).endExchange.csSettle))
        ∧ (x.state ≠ .active → x.state ≠ .joining → exec (.statusAccepted r) s = .next (s.arrived traced.endExchange.csSettle))

/-- A DESCRIPTOR accepted (R91, R95, R103): a match is followed by a POLL in the same visit, behind a CLOSE_ALL that is due (R102); a
mismatch stops the station; one that clears an attention request changes nothing; a scan records it, with the reported type and counts of a
defined station, and an ACTIVE station that reports a restart is lost, with the loss report to its owners (R87), and joins. One of a station
that was redefined in its DESCRIBE's exchange, and so is not JOINING, is not stored, and ends the exchange (DESIGN CHOICE, log 97). Any
other is a miss with characters (R84); one without an exchange does not arise and changes nothing (DESIGN CHOICE, log 3). That the POLL
after a match clears due-next-round, in an attention call's service too, is the model's choice (DESIGN CHOICE, log 59). CS judges its jobs
at the arrival's end (DESIGN CHOICE, log 10). -/
def Obligations.AcceptedDescriptorIsCompared : Prop :=
  ∀ (address : Nat) (d : Descriptor) (s : State),
    let p := s.plant
    (p.sbc.exchange = none → exec (.descriptorAccepted address d) s = .next s)
    ∧ (∀ e c, p.sbc.exchange = some e → address ≠ e.address ∨ e.purpose = .poll →
        exec (.descriptorAccepted address d) s = exec (.replyMiss ⟨true, [c]⟩) s)
    ∧ (p.sbc.exchange = some ⟨address, .clearAttention⟩ → ∃ q : Plant,
        exec (.descriptorAccepted address d) s = .next (s.arrived q.csSettle) ∧ q.sbc.exchange = none
        ∧ (∀ a, q.station a = p.station a) ∧ p.OnlyIn [.sbc] q)
    ∧ (1 ≤ address → address ≤ 30 → p.sbc.exchange = some ⟨address, .describe⟩ → (p.station address).state = .joining →
        ∃ q : Plant, exec (.descriptorAccepted address d) s = .next (s.arrived q.csSettle) ∧ p.OnlyIn [.sbc] q
        ∧ (∀ a, a ≠ address → q.station a = p.station a)
        ∧ (let x := p.station address
           let y : Station := { x with
             restarts := if d.restarted then min 65535 (x.restarts + 1) else x.restarts
             restartSinceLoss := x.restartSinceLoss || d.restarted
             reported := some d }
           let fits : Bool :=
             match x.kind, d.kind with
             | some .tap, .val .tap => d.taps = x.taps
             | some .cellar, .val .cellar => d.couplers = 16 ∧ d.outlets = 12
             | some .cooling, .val .cooling => d.stages = 3 ∧ d.trunks = 8
             | some .cleaning, .val .cleaning => d.circuits = 2
             | _, _ => false
           (fits = true → p.sbc.closeAllDue = false →
             q.station address = { y with descriptorAccepted := true, misses := 0, dueNext := false }
             ∧ q.sbc.exchange = some ⟨address, .poll⟩)
           ∧ (fits = true → p.sbc.closeAllDue = true →
             q.station address = { y with descriptorAccepted := true, misses := 0 }
             ∧ q.sbc.exchange = none ∧ q.sbc.owedPoll = some address)
           ∧ (fits = false →
             q.station address = { y with state := .mismatch, joinedFrom := none, descriptorAccepted := false }
             ∧ q.sbc.exchange = none
             ∧ q.raised = p.raised ++ [⟨.stationState, address, 4, enumFieldNum stationTypeNum d.kind, p.clock⟩])))
    ∧ (p.sbc.exchange = some ⟨address, .describe⟩ → (p.station address).state ≠ .joining → ∃ q : Plant,
        exec (.descriptorAccepted address d) s = .next (s.arrived q.csSettle) ∧ q.sbc.exchange = none
        ∧ (∀ a, q.station a = p.station a) ∧ q.raised = p.raised ∧ p.OnlyIn [.sbc] q)
    ∧ (p.sbc.exchange = some ⟨address, .scan⟩ → (p.station address).kind = none → ∃ q : Plant,
        exec (.descriptorAccepted address d) s = .next (s.arrived q.csSettle) ∧ q.sbc.exchange = none
        ∧ q.sbc.scan = p.sbc.scan.map (· ++ [(address, d)]) ∧ (∀ a, q.station a = p.station a) ∧ p.OnlyIn [.sbc] q)
    ∧ (1 ≤ address → address ≤ 30 → p.sbc.exchange = some ⟨address, .scan⟩ → (p.station address).kind ≠ none → ∃ q : Plant,
        exec (.descriptorAccepted address d) s = .next (s.arrived q.csSettle) ∧ q.sbc.exchange = none
        ∧ q.sbc.scan = p.sbc.scan.map (· ++ [(address, d)]) ∧ (∀ a, a ≠ address → q.station a = p.station a)
        ∧ (let x := p.station address
           (¬ (x.state = .active ∧ d.restarted = true) → q.station address = { x with reported := some d } ∧ p.OnlyIn [.sbc] q)
           ∧ (x.state = .active → d.restarted = true →
               q.station address = { x with
                 reported := some d, restarts := min 65535 (x.restarts + 1), restartSinceLoss := true, state := .joining,
                 joinedFrom := some .lost, descriptorAccepted := false, inputs := none, misses := 0, initialPending := false }
               ∧ (∃ l, q.raised = l ++ [⟨.stationState, address, 3, 1, p.clock⟩])
               ∧ (let scanned : Plant := { p with sbc := { p.sbc with scan := p.sbc.scan.map (· ++ [(address, d)]) } }
                  let lost : Station := { x with
                    reported := some d, restarts := min 65535 (x.restarts + 1), restartSinceLoss := true, state := .lost, inputs := none,
                    misses := 0, initialPending := false }
                  q = ((((scanned.setStation address lost).lossReport address).raise .stationState address 3 1).setStation address
                    { lost with state := .joining, joinedFrom := some .lost, descriptorAccepted := false }).endExchange))))

/-! ### Cellar cooling (chapter 6) -/

/-- SET_COOLING (R108): an absent field keeps its value, and surge, effective setpoint and gate follow (R107, R120, R127). The gate is
true while the state is RUNNING, no probe fault is present, and the last bath reading is known and at most 1.0 °C above the effective
setpoint (R127). Minimum times given without the choice PROGRAMMED are neither checked nor taken (DEDUCED, log 45); with it, one that is
absent is refused with BAD_PARAM 5 or 6 (DESIGN CHOICE, log 76). CS then judges its jobs (DESIGN CHOICE, log 10). -/
def Obligations.CoolingSettingsAreTaken : Prop :=
  (∀ c : Cc, c.gateFor = true ↔ c.state = .running ∧ c.probeFault = false ∧ ∃ t, c.lastBath = some t ∧ t ≤ c.effective + 10)
  ∧ ∀ (h : ReqHdr) (setpoint : Option Int) (threshold : Option Nat) (offset : Option Int) (choice : EnumField MinTimes)
    (minOn minOff : Option Nat) (s : State), Ready Kind.setCooling h s →
    let p := s.plant
    let programmed : Bool := enumVal? choice = some .programmed
    ∃ q : Plant,
      exec (.setCooling h setpoint threshold offset choice minOn minOff) s =
        .next (s.checked Kind.setCooling h
          [(setpoint.any fun t => t < -40 ∨ 20 < t, .badParam, 1), (threshold.any fun n => n < 5 ∨ 100 < n, .badParam, 2),
           (offset.any fun t => t < 0 ∨ 20 < t, .badParam, 3), (wrongIfGiven choice, .badParam, 4),
           (programmed && minOn.all fun n => n < 60 ∨ 900 < n, .badParam, 5),
           (programmed && minOff.all fun n => n < 60 ∨ 900 < n, .badParam, 6)]
          (s.answered Kind.setCooling h [] q.csSettle))
      ∧ q.cc.setpoint = setpoint.getD p.cc.setpoint ∧ q.cc.threshold = threshold.getD p.cc.threshold
      ∧ q.cc.offset = offset.getD p.cc.offset
      ∧ (enumVal? choice = none → q.cc.programmed = p.cc.programmed)
      ∧ (choice = .val .standard → q.cc.programmed = none)
      ∧ (∀ a b, choice = .val .programmed → minOn = some a → minOff = some b → q.cc.programmed = some (a, b))
      ∧ (q.cc.surge = true ↔ q.cc.threshold * 1000 ≤ (q.cc.window.map (·.2)).sum ∨ q.cc.hintEnd ≠ none)
      ∧ q.cc.effective = (if q.cc.surge then q.cc.setpoint - q.cc.offset else q.cc.setpoint) ∧ q.cc.gate = q.cc.gateFor
      ∧ q.cc.state = p.cc.state ∧ q.cc.stages = p.cc.stages ∧ q.cc.trunks = p.cc.trunks ∧ q.cc.window = p.cc.window
      ∧ q.cc.lastBath = p.cc.lastBath ∧ p.OnlyIn [.cc] q

/-- SURGE_HINT, its end, and the pour-load window (R118 to R120): the hint runs for its duration, 0 ends it; a completed pour's volume
joins the window's tail as a pair of its own, or with 512 pairs held is added to the tail pair, which keeps its time; pairs 60 s old leave
the head of the window; surge is judged after each, and nothing else of CC moves. No other block moves with them, but the time base, which
is brought to the end of the hint and of a pair's 60 s; with no hint or no pair nothing changes (DESIGN CHOICE, log 2). CS then judges its
jobs (DESIGN CHOICE, log 10). -/
def Obligations.SurgeFollowsHintAndWindow : Prop :=
  (∀ (c : Cc) (now ml : Nat), c.LoadAdded (now, ml) (c.addLoad now ml))
  ∧ ∀ s : State,
    let p := s.plant
    (∀ (h : ReqHdr) (duration : Nat), Ready Kind.surgeHint h s → ∃ q : Plant,
      exec (.surgeHint h duration) s =
        .next (s.checked Kind.surgeHint h [(1800 < duration, .badParam, 1)]
          (s.answered Kind.surgeHint h
            (leBytes 4 (if duration = 0 then 4294967295 else (p.clock + BitVec.ofNat 32 duration).toNat)) q.csSettle))
      ∧ q = { p with cc := q.cc }
      ∧ Cc.SurgeJudged { p.cc with hintEnd := if duration = 0 then none else some (p.now + duration * 1000) } q.cc)
    ∧ (∀ d, p.cc.hintEnd = some d → ∃ q : Plant, exec .surgeHintEnd s = .next (s.arrived q.csSettle)
        ∧ q = { p.reach d with cc := q.cc } ∧ (p.reach d).msc = { p.msc with timeBase := max p.now d }
        ∧ Cc.SurgeJudged { p.cc with hintEnd := none } q.cc)
    ∧ (∀ t ml rest, p.cc.window = (t, ml) :: rest → ∃ q : Plant, exec .pourLoadAgeOut s = .next (s.arrived q.csSettle)
        ∧ q = { p.reach (t + 60000) with cc := q.cc } ∧ (p.reach (t + 60000)).msc = { p.msc with timeBase := max p.now (t + 60000) }
        ∧ Cc.SurgeJudged { p.cc with window := p.cc.window.dropWhile fun e => e.1 + 60000 ≤ max p.now (t + 60000) } q.cc)
    ∧ (p.cc.hintEnd = none → exec .surgeHintEnd s = .next s) ∧ (p.cc.window = [] → exec .pourLoadAgeOut s = .next s)

/-- DEFINE_TRUNK, CLEAR_STAGE_TRIP and CLEAR_PUMP_FAULT (R117, R121, R125). A trunk taken into use is UNKNOWN with its pump on; one taken
out of use is UNUSED with its pump off and its pump timer stopped; a trip is cleared only while the cooling station shows the input not
TRIPPED. That the TRUNK_STATE notice stands before the notices of PE's taps is the model's choice (DESIGN CHOICE, log 11), and so is that
an IN_USE refusal of DEFINE_TRUNK names the trunk (DESIGN CHOICE, log 92). -/
def Obligations.TrunksAreDefinedAndFaultsCleared : Prop :=
  ∀ (h : ReqHdr) (s : State),
    let p := s.plant
    (∀ (i : Nat) (use : EnumField Bool) (warm hot : Option Int), Ready Kind.defineTrunk h s →
      let x := p.trunk i
      let u := enumOr true use
      ∃ q : Plant,
      exec (.defineTrunk h i use warm hot) s =
        .next (s.checked Kind.defineTrunk h
          [(7 < i, .badParam, 1), (wrongEnum use, .badParam, 2), (warm.any fun t => t < 0 ∨ 150 < t, .badParam, 3),
           (hot.any fun t => t < 10 ∨ 250 < t, .badParam, 4), (hot.getD 70 < warm.getD 40 + 10, .badParam, 4),
           (!u && p.live
              && ((List.range 48).any (fun l => (p.line l).any fun y => y.trunk = i) || p.cs.jobs.any (fun j => j.trunk = i)
                || x.circuit.isSome), .inUse, 1)]
          (s.answered Kind.defineTrunk h [] q))
      ∧ (i < 8 →
          let y := q.trunk i
          y.inUse = u ∧ y.warm = warm.getD 40 ∧ y.hot = hot.getD 70 ∧ y.circuit = x.circuit
          ∧ (u = true → x.inUse = false → y.pump = true ∧ y.state = .unknown ∧ y.temperature = x.temperature)
          ∧ (u = false → x.inUse = true →
              y.pump = false ∧ y.pumpFault = false ∧ y.pumpEnd = none ∧ y.temperature = none ∧ y.feedback = none ∧ y.state = .unused)
          ∧ (u = x.inUse → y.pump = x.pump ∧ y.state = x.state ∧ y.temperature = x.temperature ∧ y.pumpFault = x.pumpFault
              ∧ y.pumpEnd = x.pumpEnd ∧ y.feedback = x.feedback)
          ∧ (u ≠ x.inUse → y.state ≠ x.state →
              (∃ l, q.raised = ⟨.trunkState, i, y.state.num, 3, p.clock⟩ :: l) ∧ q.trunkView i = y.state))
      ∧ (∀ j, j ≠ i → q.trunk j = p.trunk j) ∧ q.cc.stages = p.cc.stages ∧ p.OnlyIn [.cc, .pe, .cs] q)
    ∧ (∀ i, Ready Kind.clearStageTrip h s →
      exec (.clearStageTrip h i) s =
        .next (s.checked Kind.clearStageTrip h
          [(2 < i, .badParam, 1),
           (!((p.addressOf .cooling).any fun a => match (p.station a).inputs with
              | some (.cooling _ _ tripped _ _) => !(tripped.toList.getD i true)
              | _ => false), .refusedState, 1)]
          (s.answered Kind.clearStageTrip h [] (p.setStage i { p.stage i with tripped := false }))))
    ∧ (∀ i, Ready Kind.clearPumpFault h s →
      exec (.clearPumpFault h i) s =
        .next (s.checked Kind.clearPumpFault h [(7 < i, .badParam, 1), (!(p.trunk i).inUse, .refusedState, 1)]
          (s.answered Kind.clearPumpFault h [] (p.setTrunk i { p.trunk i with pumpFault := false }))))

/-- The stages at a bath reading (R113, R114): above the start limit the first stage in order that is OFF and not tripped starts,
once its minimum off time and the step delay are met; below the stop limit the last stage in order that is ON stops, once its
minimum on time is met; no other stage changes. -/
def Obligations.StagesStartAndStopOneByOne : Prop :=
  ∀ (c : Cc) (now : Nat) (t : Int), c.lastBath = some t →
    let d := c.judgeStages now
    let judged : Bool := (c.state = .running ∨ c.state = .degraded) ∧ c.probeFault = false
    let met : Nat → Option Nat → Prop := fun span time => ∀ b, time = some b → b + span ≤ now
    let minOn := match c.programmed with | none => 180000 | some (a, _) => a * 1000
    let minOff := match c.programmed with | none => 300000 | some (_, b) => b * 1000
    (judged = false ∨ (c.effective - 5 ≤ t ∧ t ≤ c.effective + 5) → d = c)
    ∧ (∀ i, i < 3 → judged = true → c.effective + 5 < t →
        (c.order.find? fun k => !(c.stage k).command && !(c.stage k).tripped) = some i →
        (met minOff (c.stage i).lastChange → met 60000 c.lastStart →
          d.stage i = { c.stage i with command := true, lastChange := some now } ∧ d.lastStart = some now
          ∧ (∀ j, j ≠ i → d.stage j = c.stage j) ∧ d.order = c.order)
        ∧ (¬ (met minOff (c.stage i).lastChange ∧ met 60000 c.lastStart) → d = c))
    ∧ (judged = true → c.effective + 5 < t →
        (c.order.find? fun k => !(c.stage k).command && !(c.stage k).tripped) = none → d = c)
    ∧ (∀ i, i < 3 → judged = true → t < c.effective - 5 → (c.order.reverse.find? fun k => (c.stage k).command) = some i →
        (met minOn (c.stage i).lastChange →
          d.stage i = { c.stage i with command := false, lastChange := some now } ∧ (∀ j, j ≠ i → d.stage j = c.stage j)
          ∧ d.lastStart = c.lastStart
          ∧ d.order = (if d.stages.toList.any (·.command) then c.order
              else match c.order with | [] => [] | k :: rest => rest ++ [k]))
        ∧ (¬ met minOn (c.stage i).lastChange → d = c))
    ∧ (judged = true → t < c.effective - 5 → (c.order.reverse.find? fun k => (c.stage k).command) = none → d = c)

/-- The cooling timers and what the cooling station gives CC (R109 to R112, R116, R122 to R124, R126). A status is taken in the order trips,
run feedback, trunks (pump, then return temperature), bath, degrade limit, stages. A new trip turns the stage OFF, with its notice, whose
first detail is the command the stage had, ON 0 or OFF 1 (DESIGN CHOICE, log 34), and three of them make RUNNING DEGRADED, with the
COOLING_STATE notice, where DEGRADED takes the cause alone. A return in range judges the trunk by Table 6-4, one out of range is
PROBE_FAULT. A running degrade timer goes on while the bath is high, and DEGRADED ends when it is cold enough. The loss starts the grace
timer and makes a LIVE controller UNSUPERVISED; the join stops it and starts one that was OFF or UNSUPERVISED, RUNNING, or DEGRADED with all
three stages tripped, with its COOLING_STATE notice. The degrade timer takes RUNNING to DEGRADED for a high bath; outside RUNNING its end
clears the timer alone (DEDUCED, log 43); the pump timer sets the pump fault; the grace timer makes every trunk in use UNKNOWN, each with
its TRUNK_STATE notice unless it was UNKNOWN. The time base is brought to a timer's end, and with no such timer running nothing changes
(DESIGN CHOICE, log 2). -/
def Obligations.CoolingTimersActAsTheRulesSay : Prop :=
  (∀ (p : Plant) (bath : Int) (running tripped : Vector Bool 3) (returns : Vector Int 8) (pumps : Vector Bool 8),
     let p1 := ((List.range 3).filter fun i => tripped.toList.getD i false).foldl Plant.tripStage p
     let p2 := { p1 with cc := { p1.cc with stages := Vector.ofFn fun i => { p1.cc.stages.get i with running := some (running.get i) } } }
     let p3 := p2.takeTrunks returns pumps
     let p4 := ({ p3 with cc := p3.cc.takeBath bath }).judgeDegrade
     let c := p4.cc.judgeStages p4.now
     p.coolingStatus bath running tripped returns pumps = { p4 with cc := { c with gate := c.gateFor } })
  ∧ (∀ (p : Plant) (i : Nat), i < 3 →
       let s := p.stage i
       let q := p.tripStage i
       let all : Bool := (List.range 3).all fun k => k = i || (p.stage k).tripped
       (s.tripped = true → q = p)
       ∧ (s.tripped = false →
           q.stage i = { s with tripped := true, command := false, lastChange := if s.command then some p.now else s.lastChange }
           ∧ (∀ k, k ≠ i → q.stage k = p.stage k)
           ∧ q.cc.order = (if s.command && (List.range 3).all (fun k => k = i || !(p.stage k).command) then
               (match p.cc.order with | [] => [] | k :: rest => rest ++ [k]) else p.cc.order)
           ∧ q.raised = p.raised
               ++ ⟨.stageTrip, i, if s.command then 0 else 1, ((List.range 3).filter fun k => k = i || (p.stage k).tripped).length, p.clock⟩
               :: (if all = true ∧ p.cc.state = .running then [⟨.coolingState, 0, 2, CoolingCause.num .allTripped, p.clock⟩] else [])
           ∧ (all = true → p.cc.state = .running ∨ p.cc.state = .degraded → q.cc.state = .degraded ∧ q.cc.cause = some .allTripped)
           ∧ (all = false ∨ p.cc.state = .off ∨ p.cc.state = .unsupervised → q.cc.state = p.cc.state ∧ q.cc.cause = p.cc.cause)
           ∧ p.OnlyIn [.cc] q))
  ∧ (∀ (p : Plant) (returns : Vector Int 8) (pumps : Vector Bool 8) (i : Nat), (hi : i < 8) →
       let x := p.trunk i
       let q := p.takeTrunks returns pumps
       let y := q.trunk i
       let t := returns[i]
       (x.inUse = false → y = x)
       ∧ (x.inUse = true →
           (y.inUse = true ∧ y.warm = x.warm ∧ y.hot = x.hot ∧ y.pump = x.pump ∧ y.pumpFault = x.pumpFault ∧ y.circuit = x.circuit)
           ∧ y.feedback = some pumps[i]
           ∧ y.pumpEnd = (if p.live && !x.pumpFault then (if pumps[i] then none else some (x.pumpEnd.getD (p.now + 10000))) else x.pumpEnd)
           ∧ (-200 ≤ t ∧ t ≤ 400 → y.temperature = some t
               ∧ y.state =
                 if x.hot ≤ t then .hot
                 else if x.hot - 5 ≤ t then (if x.state = .hot then .hot else .warm)
                 else if x.warm ≤ t then .warm
                 else if x.warm - 5 ≤ t then (if x.state = .warm ∨ x.state = .hot then .warm else .normal)
                 else .normal)
           ∧ (¬ (-200 ≤ t ∧ t ≤ 400) → y.temperature = x.temperature ∧ y.state = .probeFault)
           ∧ (y.state ≠ x.state → q.trunkView i = y.state
               ∧ ⟨.trunkState, i, y.state.num, if -200 ≤ t ∧ t ≤ 400 then 0 else 1, p.clock⟩ ∈ q.raised))
       ∧ q.cc.stages = p.cc.stages ∧ q.cc.lastBath = p.cc.lastBath ∧ q.cc.state = p.cc.state ∧ p.OnlyIn [.cc, .pe, .cs] q)
  ∧ (∀ (c : Cc) (t : Int), c.takeBath t =
       if -200 ≤ t ∧ t ≤ 400 then { c with lastBath := some t, probeFault := false } else { c with probeFault := true })
  ∧ (∀ p : Plant,
       let c := p.cc
       let q := p.judgeDegrade
       let high : Bool := c.probeFault || c.lastBath.any fun t => decide (c.effective + 30 < t)
       let cold : Bool := c.lastBath.any fun t => decide (t ≤ c.effective + 10)
       let tripped : Bool := c.stages.toList.all (·.tripped)
       (c.state = .running → q = { p with cc := { c with
         degradeEnd := if high then some (c.degradeEnd.getD (p.now + 300000)) else none } })
       ∧ (c.state = .degraded → cold = true → c.probeFault = false → tripped = false →
           q.cc.state = .running ∧ q.cc.cause = none ∧ q.cc.degradeEnd = none ∧ q.cc.stages = c.stages
           ∧ ⟨.coolingState, 0, 1, CoolingCause.num .recovered, p.clock⟩ ∈ q.raised ∧ p.OnlyIn [.cc] q)
       ∧ (c.state = .degraded → cold = false ∨ c.probeFault = true ∨ tripped = true → q = p)
       ∧ (c.state = .off ∨ c.state = .unsupervised → q = p))
  ∧ (∀ p : Plant,
       (let q := p.coolingLoss
        q.cc.graceEnd = some (p.now + 60000) ∧ q.cc.stages = p.cc.stages ∧ q.cc.lastBath = p.cc.lastBath ∧ p.OnlyIn [.cc] q
        ∧ (∀ i < 8, q.trunk i = { p.trunk i with pumpEnd := none })
        ∧ (p.live = true → p.cc.state = .running ∨ p.cc.state = .degraded →
            q.cc.state = .unsupervised ∧ q.cc.cause = none ∧ q.cc.degradeEnd = none ∧ q.cc.gate = false
            ∧ q.raised = p.raised ++ [⟨.coolingState, 0, 3, CoolingCause.num .lost, p.clock⟩])
        ∧ (p.live = false ∨ p.cc.state = .off ∨ p.cc.state = .unsupervised → q.cc.state = p.cc.state ∧ q.raised = p.raised))
       ∧ (let q := p.coolingJoin
          q.cc.graceEnd = none ∧ q.cc.stages = p.cc.stages ∧ q.cc.trunks = p.cc.trunks ∧ p.OnlyIn [.cc] q
          ∧ (p.live = true → q.cc.joinedOnce = true)
          ∧ (p.live = true → p.cc.state = .off ∨ p.cc.state = .unsupervised →
              let all : Bool := p.cc.stages.toList.all (·.tripped)
              q.cc.state = (if all then .degraded else .running) ∧ q.cc.cause = (if all then some .allTripped else none)
              ∧ q.raised = p.raised ++ [⟨.coolingState, 0, if all then 2 else 1,
                  CoolingCause.num (if all then .allTripped else .joined), p.clock⟩])
          ∧ (p.live = false ∨ p.cc.state = .running ∨ p.cc.state = .degraded → q.cc.state = p.cc.state ∧ q.raised = p.raised)))
  ∧ ∀ s : State,
    let p := s.plant
    (∀ d, p.cc.degradeEnd = some d → ∃ q : Plant, exec .degradeTimerExpiry s = .next (s.arrived q)
      ∧ q.msc = { p.msc with timeBase := max p.now d } ∧ q.cc.degradeEnd = none ∧ p.OnlyIn [.msc, .cc] q
      ∧ (p.cc.state = .running → q.cc.state = .degraded ∧ q.cc.cause = some .bathHigh ∧ q.cc.gate = false
          ∧ q.raised = p.raised ++ [⟨.coolingState, 0, 2, 3, p.clock⟩])
      ∧ (p.cc.state ≠ .running → q.cc = { p.cc with degradeEnd := none } ∧ q.raised = p.raised))
    ∧ (∀ i d, i < 8 → (p.trunk i).pumpEnd = some d →
        exec (.pumpTimerExpiry i) s = .next (s.arrived
          (((p.reach d).setTrunk i { p.trunk i with pumpFault := true, pumpEnd := none }).raise .trunkState i (p.trunk i).state.num 4)))
    ∧ (∀ d, p.cc.graceEnd = some d → ∃ q : Plant, exec .graceTimerExpiry s = .next (s.arrived q)
        ∧ q.msc = { p.msc with timeBase := max p.now d } ∧ q.cc.graceEnd = none ∧ q.cc.stages = p.cc.stages ∧ q.cc.state = p.cc.state
        ∧ (∀ i, i < 8 → (p.trunk i).inUse = true → q.trunk i = { p.trunk i with state := .unknown }
            ∧ ((p.trunk i).state ≠ .unknown →
                ⟨.trunkState, i, TrunkState.num .unknown, TrunkCause.num .graceEnd, p.clock⟩ ∈ q.raised ∧ q.trunkView i = .unknown)
            ∧ ((p.trunk i).state = .unknown → ∀ n ∈ q.raised, n.kind = .trunkState → n.subject = i → n ∈ p.raised))
        ∧ (∀ i, (p.trunk i).inUse = false → q.trunk i = p.trunk i) ∧ p.OnlyIn [.msc, .cc, .pe, .cs] q)
    ∧ (p.cc.degradeEnd = none → exec .degradeTimerExpiry s = .next s)
    ∧ (∀ i, (p.trunk i).pumpEnd = none → exec (.pumpTimerExpiry i) s = .next s)
    ∧ (p.cc.graceEnd = none → exec .graceTimerExpiry s = .next s)

/-! ### Line cleaning (chapter 7) -/

/-- DEFINE_PROGRAMME (R129, R130, R194): the entry holds the checked steps and whether the programme is valid, and no list makes it
undefined. A field that a step's action does not use is ignored (DEDUCED, log 38), but an on-fail number outside its values is refused in
every step (R194). The number that names a faulty step and field is a free value (log 7). -/
def Obligations.ProgrammeIsCheckedAndWritten : Prop :=
  (∀ (h : ReqHdr) (i : Nat) (steps : Option (List StepField)) (s : State), Ready Kind.defineProgramme h s →
    let p := s.plant
    let fields := steps.getD []
    let list := fields.map StepField.toStep
    let q := p.setProgramme i (steps.map fun _ => ⟨list, stepsValid list⟩)
    exec (.defineProgramme h i steps) s =
        .next (s.checked Kind.defineProgramme h
          [(5 < i, .badParam, 1), (12 < fields.length, .badParam, 2),
           ((listFault 0 fields).isSome, .badParam, match listFault 0 fields with | some (k, n) => Config.stepFieldDetail k n | none => 0),
           (p.live && p.cs.jobs.any fun j => j.programme = i, .inUse, 1), (p.live && !stepsValid list, .badParam, 2)]
          (s.answered Kind.defineProgramme h [] q))
      ∧ (i < 6 → ∀ k, q.programme k = if k = i then steps.map fun _ => ⟨list, stepsValid list⟩ else p.programme k)
      ∧ q.cs.jobs = p.cs.jobs ∧ q.cs.circuits = p.cs.circuits ∧ p.OnlyIn [.cs] q)
  ∧ (∀ list : List StepField, listFault 0 list = none ↔
      ∀ (k : Nat) (f : StepField), list[k]? = some f →
        (∀ n, f.onFail ≠ .bad n) ∧
        match f.action with
        | .val .soak => f.medium = .absent ∧ ∃ d, f.duration = some d ∧ 10 ≤ d ∧ d ≤ 3600
        | .val .push => (∃ m, f.medium = .val m) ∧ ∃ n, f.factor = some n ∧ 10 ≤ n ∧ n ≤ 40
        | .val .recirculate | .val .pulse => (∃ m, f.medium = .val m) ∧ ∃ d, f.duration = some d ∧ 10 ≤ d ∧ d ≤ 3600
        | .val .prove =>
          (∃ m, f.medium = .val m) ∧ (∃ n, f.threshold = some n ∧ 100 ≤ n ∧ n ≤ 100000)
            ∧ (∃ n, f.limit = some n ∧ 30 ≤ n ∧ n ≤ 1800)
            ∧ (f.onFail = .val .abort ∨ (f.onFail = .val .again ∧ k ≠ 0 ∧ ∃ n, f.count = some n ∧ 1 ≤ n ∧ n ≤ 3))
        | _ => False)
  ∧ ∀ list : List Step, stepsValid list = true ↔
      (∀ s, list.getLast? = some s → s.waterProve = true)
        ∧ ∀ (a : List Step) (c : Step) (b : List Step), list = a ++ c :: b → c.chemical = true → ∃ s ∈ b, s.waterProve = true

/-- REQUEST_CLEAN (R134): the checks in their order, the line concerned named; then a QUEUED job at the queue's tail, its lines
ascending, each naming the job, and the JOB_STATE notice. The check that no tap names a line of the list fails only when no line of it has
a tap (DEDUCED, log 39). The job takes the first id from the next job id on, 254 followed by 1, that no unfinished job holds, and the
next job id is then the one behind it; that the held ids are passed over as the request takes its id, not before, is the model's choice
(DESIGN CHOICE, log 68). CS then judges its jobs (DESIGN CHOICE, log 10). Two details are free values (DESIGN CHOICE, log 7). -/
def Obligations.CleaningJobIsQueuedOrRefused : Prop :=
  ∀ (h : ReqHdr) (trunk : Nat) (lines : List Nat) (programme : Nat) (s : State), Ready Kind.requestClean h s →
    let p := s.plant
    let after : Nat → Nat := fun i => if 254 ≤ i then 1 else i + 1
    let firstOf : (Nat → Bool) → Nat := fun f => (lines.find? f).getD 0
    let perLine : Result → (Nat → Bool) → Check := fun r f => (lines.any f, r, firstOf f)
    ∃ (q : Plant) (id : Nat),
      exec (.requestClean h trunk lines programme) s =
        .next (s.checked Kind.requestClean h
          [(7 < trunk, .badParam, 1), (lines.length < 1 ∨ 12 < lines.length, .badParam, 2), perLine .badParam (fun l => 47 < l),
           perLine .badParam (fun l => 1 < lines.count l), perLine .badParam (fun l => (p.line l).any fun x => x.trunk ≠ trunk),
           perLine .notFound (fun l => (p.line l).isNone), (!(p.trunk trunk).inUse, .notFound, 1),
           ((p.programme programme).isNone, .notFound, 3),
           ((List.range 31).all fun a => (p.station a).kind ≠ some .cleaning, .notFound, Config.noFieldDetail),
           (!((p.programme programme).any fun g => g.valid), .refusedState, 3),
           ((List.range 96).all fun t => !((p.tap t).line.any fun l => lines.contains l), .refusedState, 2),
           perLine .refusedState (fun l => ((p.programme programme).any fun g => g.steps.isEmpty)
             && !((p.line l).any fun x => x.content = .water)),
           perLine .inUse (fun l => (p.line l).any fun x => x.job.isSome), (8 ≤ p.cs.jobs.length, .full, Config.noFieldDetail)]
          (s.answered Kind.requestClean h (leBytes 1 id) q.csSettle))
      ∧ (p.job p.cs.nextJob = none → id = p.cs.nextJob)
      ∧ (∃ n, id = after^[n] p.cs.nextJob ∧ ∀ k < n, p.job (after^[k] p.cs.nextJob) ≠ none)
      ∧ (p.cs.jobs.length < 8 → p.job id = none) ∧ (1 ≤ p.cs.nextJob → p.cs.nextJob ≤ 254 → 1 ≤ id ∧ id ≤ 254)
      ∧ q.cs.nextJob = (if 254 ≤ id then 1 else id + 1)
      ∧ (∃ j, q.cs.jobs = p.cs.jobs ++ [j] ∧ j.id = id ∧ j.trunk = trunk
          ∧ j.lines = (List.range 48).filter (fun l => lines.contains l) ∧ j.programme = programme ∧ j.state = .queued
          ∧ j.circuit = none ∧ j.step = none ∧ j.repeats = 0 ∧ j.requestedAt = p.clock ∧ j.chemical = false ∧ j.proof = false
          ∧ j.returnLine = none ∧ j.abortCause = none ∧ j.flushFailed = false ∧ j.remaining = j.lines ∧ j.timer = none)
      ∧ (∀ l, l < 48 → q.line l = (p.line l).map fun x => { x with job := if lines.contains l then some id else x.job })
      ∧ q.raised = [⟨.jobState, id, 0, 0, p.clock⟩] ∧ p.OnlyIn [.lm, .cs] q

/-- ABORT_CLEAN and CLEAR_CIRCUIT_FAULT (R149, R150, R152, R153): a QUEUED job is discarded at once; one that holds a circuit is aborted by
R149: its abort flush runs, or fails with the first of R150's conditions that does not hold, or its lines are settled by Table 7-6; a
FLUSHING job is left, and an unknown id refused. A fault is cleared only from FAULT. A loss report aborts every job that uses the station,
and a FLUSHING one fails its flush (R132, R149, R151); at the loss of the cleaning station the jobs are aborted before the inputs become
unknown (DESIGN CHOICE, log 36). The stations a job uses are those of its lines left and of its cap set, or of its lines' taps while it
drains (DEDUCED, log 30), and two jobs that one loss ends are ended oldest first (DESIGN CHOICE, log 86). Once a job has ended its circuit
is connected to no trunk, and its trunk to no circuit (R131, R148). Once it has ended, and as its flush starts, the flow requests of its
whole line list are written off, those of lines that have left it too (DESIGN CHOICE, log 78; DEDUCED, log 48). CS then judges its jobs, at
the end of an arrival (DESIGN CHOICE, log 10): one judgement after another until nothing is left to judge, 200 at the most, which is more
than eight jobs can use. The last of them grants, when no job of the queue has a line to take, a wait to end or a pause to end: the
lowest-numbered FREE circuit to the oldest eligible job (R135, R136), which then drains its lines. -/
def Obligations.JobsAreAbortedAndFaultsCleared : Prop :=
  (∀ p : Plant,
     (p.Settled → p.csSettle = p) ∧ (p.cs.jobs = [] → p.csSettle = p)
     ∧ (∀ q, p.csNext = some q → q.Settled → p.csSettle = q)
     ∧ ∃ (n : Nat) (w : Nat → Plant), w 0 = p ∧ (∀ k < n, (w k).csNext = some (w (k + 1))) ∧ w n = p.csSettle
         ∧ ((w n).Settled ∨ n = 200))
  ∧ (∀ (p : Plant) (c : Nat) (j : Job),
       p.cs.jobs.find? p.stillServes = none → p.cs.jobs.find? p.drainingEnds = none → p.cs.jobs.find? p.capCheckEnds = none →
       p.cs.jobs.find? p.pauseEnds = none →
       let fits : Job → Bool := fun k =>
         decide (k.state = .queued) && !p.cs.hold && (p.trunk k.trunk).circuit.isNone && p.cc.gate
           && (mediaNeeded (p.stepsOf k.programme)).all p.cs.tankOk && (p.addressOf .cleaning).any p.active
       let free := (List.range 2).find? fun n => decide ((p.circuit n).state = .free)
       (free = none ∨ p.cs.jobs.find? fits = none → p.csNext = none)
       ∧ (free = some c → p.cs.jobs.find? fits = some j → p.job j.id = some j → ∃ q : Plant, p.csNext = some q
           ∧ (∃ k, q.job j.id = some k ∧ k.state = .draining ∧ k.circuit = some c ∧ k.timer = some (.draining, p.now + 60000)
               ∧ k.lines = j.lines ∧ k.remaining = j.remaining)
           ∧ (q.circuit c).state = .busy ∧ (q.circuit c).job = some j.id ∧ (q.circuit c).out.trunk = some j.trunk
           ∧ (j.trunk < 8 → (q.trunk j.trunk).circuit = some c)
           ∧ ⟨.jobState, j.id, 1, c, p.clock⟩ ∈ q.raised
           ∧ (∀ l x, p.line l = some x → ∃ y, q.line l = some y ∧ y.content = x.content ∧ y.chain = x.chain
               ∧ y.state = (if l ∈ j.lines ∧ x.state = .serving then .draining else x.state)
               ∧ (l ∈ j.lines → x.state = .serving → y.outlet = q.outletOf y))
           ∧ p.OnlyIn [.lm, .pe, .cc, .cs] q))
  ∧ (∀ (p : Plant) (a : Nat),
       let isPlant : Bool := (p.station a).kind = some .cleaning
       let uses : Job → Bool := fun j =>
         j.remaining.any (fun l => (p.line l).any fun x => decide (x.station = a))
           || (List.range 96).any fun i => ((p.tap i).station.any fun b => decide (b.1 = a))
             && if j.state = .draining then (p.tap i).line.any fun l => j.remaining.contains l else j.capSet.contains i
       let hit := p.cs.jobs.filter fun j => j.circuit.isSome && (isPlant || uses j)
       let q := hit.foldl (fun r j => r.endJob j.id .stationLost .stationLost) p
       p.csLoss a =
         if isPlant then
           { q with cs := { q.cs with
             tanks := none, circuits := q.cs.circuits.map fun c => { c with above := none, meter := none, running := none } } }
         else q)
  ∧ (∀ (p : Plant) (j : Job) (cause : AbortCause) (why : FaultCause), p.job j.id = some j →
       (j.state ≠ .flushing → p.JobAborted j.id cause (p.endJob j.id cause why))
       ∧ (j.state = .flushing → p.JobEnded j j.abortCause .failed (some why) Line.unproved p (p.endJob j.id cause why)))
  ∧ ∀ (h : ReqHdr) (s : State),
    let p := s.plant
    (∀ id, Ready Kind.abortClean h s → ∃ q : Plant,
      exec (.abortClean h id) s =
        .next (s.checked Kind.abortClean h
          [((p.job id).isNone, .notFound, 1), ((p.job id).any fun j => j.state = .flushing, .refusedState, 1)]
          (s.answered Kind.abortClean h [] (if (p.job id).isSome then q.csSettle else q)))
      ∧ (∀ j, p.job id = some j → j.state = .queued →
          q.cs.jobs = p.cs.jobs.filter (fun x => x.id ≠ j.id)
          ∧ (∀ l, l < 48 → q.line l =
              (p.line l).map fun x => { x with job := if l ∈ j.lines ∧ x.job = some j.id then none else x.job })
          ∧ q.au = (p.record (.cleanRun j.id j.trunk j.programme (some .host) .notRun
              (j.lines.map fun l => (l, (p.line l).map (·.content))))).au
          ∧ (∃ l, q.raised = l ++ [⟨.jobState, j.id, 8, 0, p.clock⟩]) ∧ p.OnlyIn [.lm, .cs, .au] q)
      ∧ (∀ j, p.job id = some j → j.state ≠ .queued → j.state ≠ .flushing → p.JobAborted id .host q))
    ∧ (∀ c, Ready Kind.clearCircuitFault h s →
      exec (.clearCircuitFault h c) s =
        .next (s.checked Kind.clearCircuitFault h
          [(1 < c, .badParam, 1), ((p.circuit c).state ≠ .fault, .refusedState, 1)]
          (s.answered Kind.clearCircuitFault h []
            (p.setCircuit c { p.circuit c with state := .free, faultCause := none }).csSettle)))

/-- A job's waiting, and the timers that end it (R137 to R139, R141, R144). What CS judges, at the end of an arrival (DESIGN CHOICE, log
10): a SERVING line of a job that waits for its lines is taken for draining, its head still supplying it (R10, R23); DRAINING ends when no
line serves and no tap of them pours, and CAP_CHECK takes the taps; with every cap FITTED the lines are taken for cleaning, their ON_LINE
heads back to LOADED, their outlets with no coupler and route CLEAN (R10, R23), and the first step runs, or, without steps, beer return,
which passes over lines that a return-only job finds without WATER (R143); a PAUSED job resumes once every tap of its cap set still in the
job shows FITTED, with the time its timers had left and the outputs and flow requests of its step or of the line under return, or, where
that line's return ended in the pause, with the next line (DEDUCED, log 35). A cap that comes off pauses a RUNNING job, and one in
BEER_RETURN whose line is still in it, by the line the tap has now (DESIGN CHOICE, log 69). The draining limit preempts the pours that still
run; the cap, PUSH and pause limits abort the job. A pause and an abort write off the flow requests of the job's whole line list (DESIGN
CHOICE, log 78); a line that a return-only job passes over leaves it, and its taps are released (DESIGN CHOICE, log 87), its flow request
off (DEDUCED, log 48). Where a tap stands in the cap sets of several jobs, each takes the cap event, oldest first (DESIGN CHOICE, log 86):
`w k` is the plant after `k` of them. The time base is brought to a timer's end, and with no such timer running nothing changes (DESIGN
CHOICE, log 2). -/
def Obligations.JobLimitsPreemptOrAbort : Prop :=
  (∀ (p : Plant) (j : Job), p.job j.id = some j →
     (p.cs.jobs.find? p.stillServes = some j → ∃ q : Plant, p.csNext = some q ∧ p.OnlyIn [.lm, .pe] q
       ∧ ∀ l x, p.line l = some x → ∃ y, q.line l = some y ∧ y.content = x.content ∧ y.chain = x.chain
           ∧ y.state = (if l ∈ j.lines ∧ x.state = .serving then .draining else x.state)
           ∧ (l ∈ j.lines → x.state = .serving → q.LineNoted l y))
     ∧ (p.cs.jobs.find? p.stillServes = none → p.cs.jobs.find? p.drainingEnds = some j →
        ∃ q : Plant, p.csNext = some q ∧ p.OnlyIn [.pe, .cs] q
         ∧ (∃ k, q.job j.id = some k ∧ k.state = .capCheck ∧ k.capSet = p.tapsOfLines j.lines ∧ k.timer = some (.cap, p.now + 600000)
             ∧ k.circuit = j.circuit)
         ∧ (∀ i l, i < 96 → (p.tap i).line = some l → l ∈ j.lines → (q.tap i).cleaning = true)
         ∧ ⟨.jobState, j.id, 2, 0, p.clock⟩ ∈ q.raised)
     ∧ (p.cs.jobs.find? p.stillServes = none → p.cs.jobs.find? p.drainingEnds = none → p.cs.jobs.find? p.capCheckEnds = some j → ∃ r q : Plant,
         p.csNext = some q ∧ r.job j.id = some { j with timer := none }
         ∧ (∀ l x, p.line l = some x → ∃ y, r.line l = some y ∧ y.content = x.content ∧ y.chain = x.chain
             ∧ y.state = (if l ∈ j.lines then .cleaning else x.state)
             ∧ (l ∈ j.lines → y.change = none ∧ r.LineNoted l y ∧ y.outlet = ⟨none, .clean, false⟩))
         ∧ (∀ l hd, l ∈ j.lines → p.headOf l = some hd → (r.source hd).state = .loaded)
         ∧ p.OnlyIn [.lm, .pe, .cs] r ∧ r.cs.circuits = p.cs.circuits ∧ r.cs.programmes = p.cs.programmes
         ∧ (p.stepsOf j.programme = [] → r.ReturnEntered { j with timer := none } q)
         ∧ (∀ st rest, p.stepsOf j.programme = st :: rest → ∃ w : Plant,
             let k : Job := { j with timer := none, state := .running }
             w.job j.id = some k ∧ w.raised = r.raised ++ [⟨.jobState, j.id, 3, 0, p.clock⟩] ∧ r.OnlyIn [.cs] w
             ∧ w.cs.circuits = r.cs.circuits ∧ w.cs.programmes = r.cs.programmes ∧ w.StepStarted k 0 st j.repeats q))
     ∧ (p.cs.jobs.find? p.stillServes = none → p.cs.jobs.find? p.drainingEnds = none → p.cs.jobs.find? p.capCheckEnds = none →
         p.cs.jobs.find? p.pauseEnds = some j → ∃ q : Plant, p.csNext = some q
         ∧ ∀ back, j.pausedFrom = some back →
             let k : Job := { j with
               state := back, pausedFrom := none, consecutive := 0, sampled := p.now, kept := none, keptPhase := none
               timer := j.kept.map (fun t => (t.1, p.now + t.2)), phase := j.keptPhase.map (fun t => (t.1, p.now + t.2)) }
             let note : Notice := ⟨.jobState, j.id, back.num, 0, p.clock⟩
             (back = .running → q.job j.id = some k ∧ note ∈ q.raised ∧ p.OnlyIn [.pe, .cs] q
               ∧ (∀ st, p.currentStep j = some st → Plant.StepWritten j st ((j.keptPhase.map (·.1)).getD true) q)
               ∧ ∀ l, l ∉ j.remaining → q.flow l = p.flow l)
             ∧ (∀ l, back = .beerReturn → j.returnLine = some l → q.job j.id = some k ∧ note ∈ q.raised ∧ p.OnlyIn [.pe, .cs] q
               ∧ q.cs.circuits = p.cs.circuits ∧ ∀ m, q.flow m = if m = l ∧ m < 48 then true else p.flow m)
             ∧ (back = .beerReturn → j.returnLine = none → ∃ w : Plant, w.job j.id = some k ∧ w.raised = p.raised ++ [note]
               ∧ p.OnlyIn [.cs] w ∧ w.cs.circuits = p.cs.circuits ∧ w.cs.programmes = p.cs.programmes ∧ w.ReturnGoesOn k q)))
  ∧ (∀ (p : Plant) (i : Nat), (p.cs.jobs.map (·.id)).Nodup →
       let hit := p.cs.jobs.filter fun k => k.capSet.contains i
       ∃ w : Nat → Plant, w 0 = p ∧ w hit.length = p.capAbsent i
         ∧ ∀ k j, hit[k]? = some j → (w k).job j.id = some j ∧ (w k).CapJudged i j (w (k + 1)))
  ∧ ∀ (id : Nat) (s : State),
    let p := s.plant
    (∀ j d, p.job id = some j → j.timer = some (.draining, d) → ∃ q : Plant,
      exec (.drainingLimitExpiry id) s = .next (s.arrived q)
      ∧ q.msc = { p.msc with timeBase := max p.now d } ∧ p.OnlyIn [.msc, .pe, .cs] q
      ∧ (∃ k, q.job id = some k ∧ k.state = j.state ∧ k.timer = none ∧ k.lines = j.lines)
      ∧ (∀ i u l, i < 96 → (p.tap i).line = some l → (p.tap i).state = .pouring → (p.tap i).cleaning = false →
          p.tapOnline (p.tap i) = true → (p.tap i).pour = some u →
          if l ∈ j.lines then
            (q.tap i).state = .ending
            ∧ (q.tap i).pour = some { u with cause := some .cleanPreempt, limitEnd := none, endingEnd := some (q.now + 2000) }
          else q.tap i = p.tap i))
    ∧ (∀ j d, p.job id = some j → j.timer = some (.cap, d) → ∃ q : Plant,
        exec (.capTimerExpiry id) s = .next (s.arrived q.csSettle) ∧ q.msc = { p.msc with timeBase := max p.now d }
          ∧ (p.reach d).JobAborted id .capTimeout q)
    ∧ (∀ j d, p.job id = some j → j.timer = some (.push, d) → ∃ q : Plant,
        exec (.pushLimitExpiry id) s = .next (s.arrived q.csSettle) ∧ q.msc = { p.msc with timeBase := max p.now d }
          ∧ (p.reach d).JobAborted id .pushTimeout q)
    ∧ (∀ j d, p.job id = some j → j.timer = some (.pause, d) → ∃ q : Plant,
        exec (.pauseTimerExpiry id) s = .next (s.arrived q.csSettle) ∧ q.msc = { p.msc with timeBase := max p.now d }
          ∧ (p.reach d).JobAborted id .pauseTimeout q)
    ∧ ((∀ j, p.job id = some j → ∀ d, j.timer ≠ some (.draining, d)) → exec (.drainingLimitExpiry id) s = .next s)
    ∧ ((∀ j, p.job id = some j → ∀ d, j.timer ≠ some (.cap, d)) → exec (.capTimerExpiry id) s = .next s)
    ∧ ((∀ j, p.job id = some j → ∀ d, j.timer ≠ some (.push, d)) → exec (.pushLimitExpiry id) s = .next s)
    ∧ ((∀ j, p.job id = some j → ∀ d, j.timer ≠ some (.pause, d)) → exec (.pauseTimerExpiry id) s = .next s)

/-- The steps of a job (R132, R140 to R143, R145, R149): a step that ends gives way to the next, whose outputs, flow requests, timer, meter
base and contents are those of R140 and Table 7-5, or, after the last, to beer return, which locks lines without a head WATER and returns
the first line behind them from its head (R145, R147), or completes the job (R148). A cleaning status sets the images, and then judges the
job of circuit 0 and that of circuit 1 (DESIGN CHOICE, log 60); initial values judge nothing. A LOW tank of the step's medium aborts the
job; a PUSH ends at its volume; a PROVE passes at the fifth sample in a row below its threshold. A duration that ends is such an end; a
PULSE step turns pump and flow over every 10 s while its duration lasts beyond the phase (DEDUCED, log 53); a PROVE that has not passed by
its limit starts the step before it again, or aborts the job. An abort writes off the flow requests of the job's whole line list (DESIGN
CHOICE, log 78), and a line that a return-only job passes over leaves it, and its taps are released (DESIGN CHOICE, log 87); the flow
request of every line passed over is off, also where the last PROVE had it on and no return follows (DEDUCED, log 48). The time base is
brought to a timer's end, and with no such timer running nothing changes (DESIGN CHOICE, log 2); CS judges its jobs at the arrival's end
(DESIGN CHOICE, log 10). -/
def Obligations.StepTimersMoveTheJobOn : Prop :=
  (∀ (p : Plant) (j : Job) (k : Nat), p.job j.id = some j → j.step = some k →
     (∀ st, (p.stepsOf j.programme)[k + 1]? = some st → p.StepStarted j (k + 1) st j.repeats (p.advance j.id))
     ∧ ((p.stepsOf j.programme)[k + 1]? = none → p.ReturnEntered j (p.advance j.id)))
  ∧ (∀ (p : Plant) (tanks : Vector Bool 3) (inputs : Vector CircuitInput 2) (initial : Bool),
       let q : Plant := { p with cs := { p.cs with
         tanks := some tanks
         circuits := Vector.ofFn fun c => { p.cs.circuits.get c with
           running := some (inputs.get c).running, meter := some (inputs.get c).meter, above := some (inputs.get c).above } } }
       p.cleaningStatus tanks inputs initial = if initial then q else (q.judgeCircuit 0).judgeCircuit 1)
  ∧ (∀ (p : Plant) (c : Nat),
       ((p.circuit c).job = none → p.judgeCircuit c = p)
       ∧ ∀ id j, (p.circuit c).job = some id → p.job id = some j →
         p.judgeCircuit c = match j.state with
           | .running => p.judgeStep j
           | .beerReturn => p.judgeReturn j
           | .flushing => p.judgeFlush j
           | _ => p)
  ∧ (∀ (p : Plant) (j : Job) (k : Nat) (st : Step), p.job j.id = some j → j.step = some k → (p.stepsOf j.programme)[k]? = some st →
       let q := p.judgeStep j
       let medium := (((p.stepsOf j.programme).take (k + 1)).filterMap Step.medium?).getLast?
       let low : Bool := medium.any fun m => !p.cs.tankOk m
       (low = true → p.JobAborted j.id .tankLow q)
       ∧ (low = false → ∀ m factor, st = .push m factor →
           q = if (p.metered j).any fun v => decide (factor * p.volumes j.lines ≤ v * 10) then p.advance j.id else p)
       ∧ (low = false → ∀ m threshold limit again, st = .prove m threshold limit again →
           let n := if j.circuit.any (fun c => decide ((p.circuit c).above = some false)) then j.consecutive + 1 else 0
           (p.now < j.sampled + 1000 → q = p)
           ∧ (j.sampled + 1000 ≤ p.now → n < 5 → q = p.modJob j.id fun x => { x with sampled := p.now, consecutive := n })
           ∧ (j.sampled + 1000 ≤ p.now → 5 ≤ n → ∃ r : Plant, q = r.advance j.id
               ∧ r.job j.id = some { j with
                   sampled := p.now, consecutive := n, repeats := 0, proof := j.proof || m = .water, timer := none }
               ∧ (∀ l, r.line l = (p.line l).map fun x =>
                   if m = .water ∧ l ∈ j.remaining ∧ x.state = .cleaning then { x with content := .water } else x)
               ∧ p.OnlyIn [.lm, .cs] r ∧ r.raised = p.raised))
       ∧ (low = false → st.meters = false → q = p))
  ∧ ∀ (id : Nat) (j : Job) (s : State), s.plant.job id = some j →
    let p := s.plant
    (∀ d, j.timer = some (.duration, d) →
      exec (.stepDurationEnd id) s = .next (s.arrived ((p.reach d).advance id).csSettle))
    ∧ (∀ on d st, j.phase = some (on, d) → (∀ k e, j.timer = some (k, e) → d < e) → p.currentStep j = some st →
        (∃ m t, st = .pulse m t) → ∃ q : Plant,
        exec (.pulsePhaseSwitch id) s = .next (s.arrived q) ∧ q.msc = { p.msc with timeBase := max p.now d }
        ∧ (∃ x, q.job id = some x ∧ x.phase = some (!on, q.now + 10000) ∧ x.state = j.state ∧ x.timer = j.timer)
        ∧ (∀ c, j.circuit = some c → c < 2 → (q.circuit c).out.pump = !on ∧ (q.circuit c).out.medium = st.medium?)
        ∧ (∀ l ∈ j.remaining, j.circuit ≠ none → l < 48 → q.flow l = !on) ∧ p.OnlyIn [.msc, .pe, .cs] q)
    ∧ (∀ m t limit onFail d, p.currentStep j = some (.prove m t limit onFail) → j.timer = some (.prove, d) → ∃ q : Plant,
        exec (.proveLimitExpiry id) s = .next (s.arrived q.csSettle) ∧ q.msc = { p.msc with timeBase := max p.now d }
        ∧ (onFail = none → (p.reach d).JobAborted id .proofFailed q)
        ∧ (∀ n k st, onFail = some n → j.step = some (k + 1) → (p.stepsOf j.programme)[k]? = some st →
            (j.repeats < n → (p.reach d).StepStarted j k st (j.repeats + 1) q)
            ∧ (n ≤ j.repeats → (p.reach d).JobAborted id .proofFailed q)))
    ∧ ((∀ d, j.timer ≠ some (.duration, d)) → exec (.stepDurationEnd id) s = .next s)
    ∧ (j.phase = none → exec (.pulsePhaseSwitch id) s = .next s)
    ∧ (∀ on d k e, j.phase = some (on, d) → j.timer = some (k, e) → e ≤ d → exec (.pulsePhaseSwitch id) s = .next s)
    ∧ ((∀ d, j.timer ≠ some (.prove, d)) → exec (.proveLimitExpiry id) s = .next s)

/-- Beer return and the abort flush (R145 to R147, R150, R151). At a cleaning status a line whose return shows beer, three samples in a row
above the threshold and the line's volume, is back in service with BEER; the end of its keg, whose KEG_CLOSE entry comes first (R6,
FobEventsPrimeAndEndKegs; its SOURCE_STATE notice names no line: DESIGN CHOICE, log 18), makes the next position the head, or locks the line
WATER, with the PURGE entry of the head that has ended; the return timer locks it WATER. A line that is done is no longer in the job, and
the volume returned, that of the circuit's return meter since its base, is a PURGE: its entry, the product's purge volume and the head's
dispensed volume grow together (R166), or, with no place for the entry, the gap count alone (R159); nothing returned writes nothing. PE
releases the taps of a line that is done, and the next line's return starts, lines that cannot return being passed over, or with none left
the job completes (R65, R145, R147, R148; Plant.LineDone): the flow request of a line passed over is off (DEDUCED, log 48), the taps of one
that a return-only job passes over are released (DESIGN CHOICE, log 87), and a return that ends while the job is PAUSED waits with the next
until the resume (DEDUCED, log 35). A flush ends at twice the volume of the lines, and fails when the water tank is LOW or at its limit,
with its circuit in FAULT; either way its lines are LOCKED with UNPROVEN, and the flow requests of the job's whole line list are written off
(DESIGN CHOICE, log 78). The time base is brought to a timer's end, and with no such timer running nothing changes (DESIGN CHOICE, log 2);
CS judges its jobs at the arrival's end (DESIGN CHOICE, log 10). -/
def Obligations.ReturnAndFlushLimitsLockTheLines : Prop :=
  (∀ (p : Plant) (j : Job),
     p.metered j = (j.base.bind fun b => (j.circuit.bind fun c => (p.circuit c).meter).map fun m => (m - b).toNat)
     ∧ ∀ (l : Nat) (hd : Option Nat),
       (p.metered j = none ∨ p.metered j = some 0 → p.purge j l hd = p)
       ∧ ∀ ml, p.metered j = some ml → 0 < ml →
         let q := p.purge j l hd
         let product := (p.line l).map (·.product)
         (p.room = true →
           (∃ e, q.au.journal = p.au.journal ++ [e] ∧ e.body = .purge l hd (product.bind p.code) ml)
           ∧ p.TotalsGrown product .purge ml 0 none q ∧ q.au.tapTotals = p.au.tapTotals
           ∧ (∀ n, n < 64 → hd = some n →
               q.source n = { p.source n with keg := (p.source n).keg.map fun g => if g.loadBase ≤ p.now then g.drawn ml else g })
           ∧ (∀ n, hd ≠ some n → q.source n = p.source n) ∧ p.OnlyIn [.lm, .au] q)
         ∧ (p.room = false → q = { p with au := { p.au with gap := min 65535 (p.au.gap + 1) } }))
  ∧ (∀ (p : Plant) (j : Job) (l : Nat), p.job j.id = some j → j.returnLine = some l →
     let q := p.judgeReturn j
     let n := if j.circuit.any (fun c => decide ((p.circuit c).above = some true)) then j.consecutive + 1 else 0
     let enough : Bool := (p.metered j).any fun v => decide (p.volumes [l] ≤ v)
     (p.now < j.sampled + 1000 → q = p)
     ∧ (j.sampled + 1000 ≤ p.now → n < 3 ∨ enough = false →
         q = p.modJob j.id fun x => { x with sampled := p.now, consecutive := n })
     ∧ (j.sampled + 1000 ≤ p.now → 3 ≤ n → enough = true →
         (∀ x, p.line l = some x → x.state = .cleaning →
           ∃ y, q.line l = some y ∧ y.state = .serving ∧ y.content = .beer ∧ y.job = none ∧ y.chain = x.chain)
         ∧ (∀ x, q.job j.id = some x → l ∉ x.remaining)
         ∧ q.au.totals = (p.purge j l (p.headOf l)).au.totals
         ∧ (∀ i, (q.source i).keg = ((p.purge j l (p.headOf l)).source i).keg)
         ∧ (p.room = true → ∀ v, p.metered j = some v → 0 < v → ∃ e rest, q.au.journal = p.au.journal ++ e :: rest
             ∧ e.body = .purge l (p.headOf l) (((p.line l).map (·.product)).bind p.code) v)
         ∧ p.LineDone { j with sampled := p.now, consecutive := n } l (p.headOf l) .serving .beer q))
  ∧ (∀ (p : Plant) (l : Nat) (x : Line) (j : Job) (hd : Nat) (more : List Nat) (cause : EndCause),
       p.line l = some x → x.state = .cleaning → x.chain = hd :: more → (p.source hd).state = .onLine → p.job j.id = some j →
       p.cs.jobs.find? (fun k => k.returnLine == some l) = some j →
       let q := p.kegEnd l cause
       let r := (p.endKeg hd .spent).purge j l (some hd)
       (q.source hd).state = .spent ∧ (q.source hd).keg = (r.source hd).keg ∧ q.au.totals = r.au.totals
       ∧ (∃ more, q.au.journal = r.au.journal ++ more) ∧ (∀ n ∈ (p.endKeg hd .spent).raised, n ∈ q.raised)
       ∧ (∀ n behind, x.chain.filter (· ≠ hd) = n :: behind → n < 64 → (q.source n).state = .onLine ∧ q.au = r.au
           ∧ (∃ y, q.line l = some y ∧ y.state = .cleaning ∧ y.content = x.content ∧ y.chain = n :: behind
               ∧ y.outlet = ⟨p.couplerOf n, .supply, false⟩)
           ∧ ∃ k, q.job j.id = some k ∧ k.returnLine = some l ∧ k.consecutive = 0
               ∧ k.base = j.circuit.bind fun c => (p.circuit c).meter)
       ∧ (x.chain.filter (· ≠ hd) = [] →
           (∃ y, q.line l = some y ∧ y.state = .locked ∧ y.content = .water ∧ y.job = none)
           ∧ (∀ k, q.job j.id = some k → l ∉ k.remaining) ∧ (p.endKeg hd .spent).LineDone j l (some hd) .locked .water q))
  ∧ (∀ (p : Plant) (j : Job), p.job j.id = some j →
       let q := p.judgeFlush j
       let enough : Bool := (p.metered j).any fun v => decide (2 * p.volumes j.remaining ≤ v)
       (p.cs.tankOk .water = false → p.JobEnded j j.abortCause .failed (some .tankLow) Line.unproved p q)
       ∧ (p.cs.tankOk .water = true → enough = true → p.JobEnded j j.abortCause .performed none Line.unproved p q)
       ∧ (p.cs.tankOk .water = true → enough = false → q = p))
  ∧ ∀ (id : Nat) (j : Job) (s : State), s.plant.job id = some j →
    let p := s.plant
    (∀ l d, j.returnLine = some l → j.timer = some (.beerReturn, d) → ∃ q : Plant,
      exec (.returnTimerExpiry id) s = .next (s.arrived q.csSettle) ∧ q.msc = { p.msc with timeBase := max p.now d }
      ∧ (∀ x, q.job id = some x → l ∉ x.remaining)
      ∧ q.au.totals = ((p.reach d).purge j l (p.headOf l)).au.totals
      ∧ (∀ i, (q.source i).keg = (((p.reach d).purge j l (p.headOf l)).source i).keg)
      ∧ (∀ x, p.line l = some x → x.state = .cleaning → ∃ y, q.line l = some y ∧ y.state = .locked ∧ y.content = .water ∧ y.job = none)
      ∧ (p.reach d).LineDone j l (p.headOf l) .locked .water q)
    ∧ (∀ d, j.timer = some (.flush, d) → ∃ q : Plant,
        exec (.flushLimitExpiry id) s = .next (s.arrived q.csSettle) ∧ q.msc = { p.msc with timeBase := max p.now d }
        ∧ (p.reach d).JobEnded j j.abortCause .failed (some .timeout) Line.unproved (p.reach d) q)
    ∧ ((∀ d, j.timer ≠ some (.beerReturn, d)) → exec (.returnTimerExpiry id) s = .next s)
    ∧ ((∀ d, j.timer ≠ some (.flush, d)) → exec (.flushLimitExpiry id) s = .next s)

/-! ### Accounting and the journal (chapter 8) -/

/-- A non-pour entry (R155, R159, R161): with a place available it takes the next seq and the part clock, and carries the gap part when
entries were dropped before it; crossing the high-water mark while it is armed disarms it, with its notice (R161); with no place it is
dropped and counted. That the notice at the mark has subject 0 is the model's choice (DESIGN CHOICE, log 63). A KEG_CLOSE entry is such
an entry, with its yield, and YIELD_DRIFT is raised when the yield lies outside its bounds, whether the entry was written or dropped
(R6, R170). -/
def Obligations.NonPourEntryIsWrittenOrCounted : Prop :=
  (∀ (p : Plant) (i : Nat), p.KegClosed i (p.source i).keg (p.kegClose i) ∧ p.OnlyIn [.au] (p.kegClose i))
  ∧ ∀ (p : Plant) (b : EntryBody),
    let q := p.record b
    (1 ≤ 2048 - p.fill - p.au.reserved →
      q.au.journal = p.au.journal ++ [⟨p.au.nextSeq, p.clock, if p.au.gap = 0 then none else some p.au.gap, b⟩]
        ∧ q.au.nextSeq = p.au.nextSeq + 1 ∧ q.au.gap = 0
        ∧ (p.au.armed = true → p.fill < p.au.mark → p.au.mark ≤ p.fill + 1 →
            q.au.armed = false ∧ q.raised = p.raised ++ [⟨.journalLevel, 0, 2, p.fill + 1, p.clock⟩])
        ∧ (p.au.armed = false ∨ p.au.mark ≤ p.fill ∨ p.fill + 1 < p.au.mark → q.au.armed = p.au.armed ∧ q.raised = p.raised))
    ∧ (2048 - p.fill - p.au.reserved = 0 → q = { p with au := { p.au with gap := min 65535 (p.au.gap + 1) } })
    ∧ q.au.reserved = p.au.reserved ∧ q.au.totals = p.au.totals ∧ q.au.tapTotals = p.au.tapTotals
    ∧ q.au.cursorSeq = p.au.cursorSeq ∧ q.au.cursorOffset = p.au.cursorOffset ∧ p.OnlyIn [.au] q

/-- READ_JOURNAL (R162, R163, R195): the held entries from the start named, consecutive and whole, up to the count, the end of the journal
or the first that does not fit; `whole` is their number, and only the read cursor moves, behind them. A PERIOD_CLOSE that does not fit as
the first is returned in parts of 8 records, each with its part number and last-part flag; the last part may be followed by whole entries.
An offset left in an entry of another kind does not arise, and returns nothing. An entry is its header, its gap part and the part of its
kind, whose fields are those of Table 11-4 at the widths of Table 11-1, with the kinds, end causes, temperature classes, outcomes, results
and causes numbered by the tables that define them (R194; EntryBody.spelled): an AMEND without a product code (DESIGN CHOICE, log 80), the
outcome of a CLEAN_RUN as log 81 numbers it (DESIGN CHOICE), the outcome PARTIAL and a factor above 65 534 as free values (DESIGN CHOICE,
logs 9 and 37). CONTINUE is the absent start (DESIGN CHOICE, log 70), and 236 bytes are left for the entries (DESIGN CHOICE, log 14). -/
def Obligations.JournalReadingMovesOnlyTheCursor : Prop :=
  (∀ (h : ReqHdr) (start : Option Word32) (count : Nat) (s : State), Ready Kind.readJournal h s →
    let p := s.plant
    ∃ (entries : List (List Byte)) (whole left : Nat),
      let first := match start with
        | none => (p.fill - (p.au.nextSeq - p.au.cursorSeq).toNat, p.au.cursorOffset)
        | some q => if (p.au.nextSeq - q).toNat ≤ p.fill then (p.fill - (p.au.nextSeq - q).toNat, 0) else (0, 0)
      let next := first.1 + whole
      readEntries (p.au.journal.drop first.1) count entryRoom first.2 true = (entries, whole, left)
      ∧ exec (.readJournal h start count) s =
        .next (s.checked Kind.readJournal h
          [(count < 1 ∨ 32 < count, .badParam, 2),
           (start.any fun q => q ≠ p.au.nextSeq ∧ 2147483648 < (p.au.nextSeq - q).toNat, .badParam, 1)]
          (s.answered Kind.readJournal h
            (leBytes 1 entries.length ++ entries.flatten
              ++ leBytes 4 (match p.au.journal with | [] => p.au.nextSeq | e :: _ => e.seq).toNat
              ++ leBytes 4 p.au.nextSeq.toNat ++ leBytes 1 (decide (next < p.fill)).toNat)
            { p with au := { p.au with cursorSeq := p.au.nextSeq - BitVec.ofNat 32 (p.fill - next), cursorOffset := left } })))
  ∧ (∀ (l : List Entry) (count offset : Nat),
      let r := readEntries l count entryRoom offset true
      let stops : Prop := r.2.1 = count ∨ r.2.1 = l.length ∨ ∃ e, l[r.2.1]? = some e ∧ 236 < r.1.flatten.length + e.bytes.length
      r.1.length ≤ count ∧ r.1.flatten.length ≤ 236 ∧ r.2.1 ≤ l.length
      ∧ (l = [] → r = ([], 0, 0))
      ∧ (offset = 0 → (∀ e ∈ l.head?, e.bytes.length ≤ 236) → r.1 = (l.take r.2.1).map Entry.bytes ∧ r.2.2 = 0 ∧ stops)
      ∧ (∀ e rest, l = e :: rest → 1 ≤ count → offset ≠ 0 ∨ 236 < e.bytes.length →
          (∀ period records, e.body = .periodClose period records →
            let last : Bool := records.length ≤ offset + 8
            let gap : List Byte := if offset = 0 then (e.gap.map (leBytes 2)).getD [] else []
            let content := leBytes 4 period.toNat ++ leBytes 1 records.length ++ leBytes 1 (offset / 8) ++ leBytes 1 last.toNat
              ++ ((records.drop offset).take 8).flatMap fun x =>
                leBytes 2 x.code ++ leBytes 4 x.ticketed ++ leBytes 4 x.free ++ leBytes 4 x.purge ++ leBytes 4 x.calibration
                  ++ leBytes 4 x.pours ++ leBytes 4 x.shorts
            let part := leBytes 4 e.seq.toNat ++ leBytes 4 e.time.toNat ++ leBytes 1 10 ++ leBytes 1 (11 + gap.length + content.length)
              ++ leBytes 1 (if gap = [] then 0 else 1) ++ gap ++ content
            (last = false → r = ([part], 0, offset + 8))
            ∧ (last = true → r.1 = part :: ((l.take r.2.1).drop 1).map Entry.bytes ∧ 1 ≤ r.2.1 ∧ r.2.2 = 0 ∧ stops))
          ∧ ((∀ period records, e.body ≠ .periodClose period records) → r = ([], 0, 0)))
      ∧ ∀ e ∈ l, (e.bytes =
          let gap := (e.gap.map (leBytes 2)).getD []
          leBytes 4 e.seq.toNat ++ leBytes 4 e.time.toNat ++ leBytes 1 e.body.num ++ leBytes 1 (11 + gap.length + e.body.bytes.length)
            ++ leBytes 1 e.gap.isSome.toNat ++ gap ++ e.body.bytes)
          ∧ e.body.bytes = e.body.spelled
          ∧ e.body.num = (match e.body with
            | .pour .. => 0 | .amend .. => 1 | .ticketClose .. => 2 | .kegClose .. => 3 | .changeover .. => 4 | .purge .. => 5
            | .cleanRun .. => 6 | .calibration .. => 7 | .calResult .. => 8 | .leak .. => 9 | .periodClose .. => 10 | .stop .. => 11
            | .start .. => 12))
  ∧ ([PourKind.normal, .topup, .calibration].map (·.num) = List.range 3 ∧ [TempClass.cold, .warm, .hot].map (·.num) = List.range 3
    ∧ [EndCause.target, .holdExpired, .stopped, .release, .limit, .stall, .fob, .kegOut, .cancelled, .cleanPreempt, .stop,
        .stationLost].map (·.num) = List.range 12
    ∧ [Outcome.poured, .short, .voidExpired, .voidCancelled].map (·.num) = List.range 4
    ∧ [ChangeResult.primed, .failedTimeout, .failedRetrip, .interrupted].map (·.num) = List.range 4
    ∧ [FlushResult.failed, .performed, .notRun].map (·.num) = List.range 3
    ∧ [AbortCause.host, .stop, .stationLost, .tankLow, .capTimeout, .pauseTimeout, .proofFailed, .pushTimeout].map (·.num) = List.range 8
    ∧ [Content.beer, .gas, .water, .cleaner, .unproven].map contentNum = List.range 5
    ∧ [StopSource.pin, .request].map (·.num) = List.range 2)

/-- RELEASE_JOURNAL and SET_JOURNAL_MARK (R160, R161, R164): held entries up to the seq are freed, a cursor among them moves to the
oldest entry left, a refused reservation gives its space event, which raises JOURNAL_LEVEL SPACE with the fill, of subject 0 by the model's
choice (DESIGN CHOICE, log 63), and the mark is armed again. The number freed and the fill of the reply
stand in 2 bytes each (DESIGN CHOICE, log 14). -/
def Obligations.JournalIsReleasedAndMarked : Prop :=
  ∀ (h : ReqHdr) (s : State),
    let p := s.plant
    let behind : Word32 → Nat := fun q => (p.au.nextSeq - q).toNat
    (∀ seq, Ready Kind.releaseJournal h s → ∃ q : Plant,
      let held := 1 ≤ behind seq ∧ behind seq ≤ p.fill
      let freed := if held then p.fill - behind seq + 1 else 0
      exec (.releaseJournal h seq) s =
        .next (s.checked Kind.releaseJournal h [(behind seq = 0 ∨ 2147483648 < behind seq, .badParam, 1)]
          (s.answered Kind.releaseJournal h
            (leBytes 2 freed ++ leBytes 4 (match q.au.journal with | [] => q.au.nextSeq | e :: _ => e.seq).toNat ++ leBytes 2 q.fill) q))
      ∧ (¬ held → q = p)
      ∧ (held → q.au.journal = p.au.journal.drop freed ∧ q.au.nextSeq = p.au.nextSeq ∧ q.au.reserved = p.au.reserved
          ∧ q.au.gap = p.au.gap ∧ q.au.totals = p.au.totals
          ∧ (p.fill - behind p.au.cursorSeq < freed →
              q.au.cursorSeq = (match q.au.journal with | [] => q.au.nextSeq | e :: _ => e.seq) ∧ q.au.cursorOffset = 0)
          ∧ (freed ≤ p.fill - behind p.au.cursorSeq → q.au.cursorSeq = p.au.cursorSeq ∧ q.au.cursorOffset = p.au.cursorOffset)
          ∧ q.au.refused = (p.au.refused && decide (2048 - q.fill - q.au.reserved ≤ 32))
          ∧ (p.au.refused = true → q.au.refused = false →
              (∀ i < 96, (p.tap i).line ≠ none → (q.tap i).holds.journal = false)
              ∧ ∃ l, q.raised = ⟨.journalLevel, 0, 1, q.fill, p.clock⟩ :: l ∧ ∀ n ∈ l, n.kind = .tapState)
          ∧ (q.au.refused = p.au.refused → q.raised = [] ∧ q.pe = p.pe)
          ∧ q.au.armed = (p.au.armed || decide (p.au.mark ≤ p.fill ∧ q.fill < p.au.mark)))
      ∧ p.OnlyIn [.pe, .au] q)
    ∧ (∀ mark, Ready Kind.setJournalMark h s →
      exec (.setJournalMark h mark) s =
        .next (s.checked Kind.setJournalMark h [(mark < 256 ∨ 2016 < mark, .badParam, 1)]
          (s.answered Kind.setJournalMark h [] { p with au := { p.au with mark := mark, armed := decide (p.au.journal.length < mark) } })))

/-- CLOSE_PERIOD (R72, R169): refused without a defined product (with a free value as the detail: DESIGN CHOICE, log 7), or without places
for its entries; else the LEAK entries, the PERIOD_CLOSE entry with a record for each defined product, the period figures cleared, and the
next period opened. -/
def Obligations.PeriodCloseClearsThePeriodFigures : Prop :=
  ∀ (h : ReqHdr) (s : State), Ready Kind.closePeriod h s →
    let p := s.plant
    let leaks := (List.range 96).filter fun i => 10 ≤ (p.tap i).creep
    let products := (List.range 32).filter fun i => p.product i ≠ none
    ∃ q : Plant,
      exec (.closePeriod h) s =
        .next (s.checked Kind.closePeriod h
          [(products = [], .refusedState, Config.noFieldDetail),
           (2048 - p.fill - p.au.reserved < leaks.length + 1, .full, leaks.length + 1)]
          (s.answered Kind.closePeriod h
            (leBytes 4 p.au.period.toNat ++ leBytes 4 (q.au.nextSeq - 1).toNat ++ leBytes 2 leaks.length) q))
      ∧ (leaks.length + 1 ≤ 2048 - p.fill - p.au.reserved →
          q.au.journal.length = p.fill + leaks.length + 1 ∧ q.au.nextSeq = p.au.nextSeq + BitVec.ofNat 32 (leaks.length + 1)
          ∧ (q.au.journal.drop p.fill).map (·.body) =
              leaks.map (fun i => .leak i (p.tap i).creep)
                ++ [.periodClose p.au.period (products.map fun i =>
                      let t := (p.totals i).1
                      ⟨(p.code i).getD 0, t.ticketed, t.free, t.purge, t.calibration, t.pours, t.shorts⟩)])
      ∧ (∀ i, q.tap i = { p.tap i with creep := 0, residue := 0 })
      ∧ (∀ i, q.totals i = (Totals.zero, (p.totals i).2)) ∧ (∀ i, q.tapTotals i = (0, 0))
      ∧ q.au.period = p.au.period + 1 ∧ q.au.openedAt = p.clock ∧ p.OnlyIn [.pe, .au] q

/-! ### Modes, clock and cellar stop (chapter 9) -/

/-- GO_LIVE (R175 to R177): refused while a scan is under way, or with the first check of Table 9-3 that fails, the checks made table by
table, index by index and, for one line or tap, in their order; else the mode is LIVE, period 1 opens, the START entry comes first, every
line enters the state of Table 9-4 with the outlet outputs of Table 1-6 (R10), and the cooling state follows the cooling station; with stop
in force a STOP entry of its onset follows the START entry (R176), and no other entry is written. That a scan's refusal, and a failed
check's, carry a free detail is log 7; that the refusal names its table by one byte, in the order of Table 10-4, and its index and check
number in one byte each, is the model's choice (DESIGN CHOICE, log 14). -/
def Obligations.GoLiveChecksThenSetsTheLines : Prop :=
  ∀ (h : ReqHdr) (s : State), Ready Kind.goLive h s →
    let p := s.plant
    let stations : StationType → Nat := fun k => ((List.range 31).filter fun a => (p.station a).kind = some k).length
    let checks : List (Bool × LiveFault) :=
      [(decide (stations .cooling ≠ 1), ⟨.stations, 0, 1⟩)]
      ++ ((List.range 48).flatMap fun l => match p.line l with
          | none => []
          | some x =>
            [(decide (p.product x.product = none), ⟨.lines, l, 2⟩), (!(p.trunk x.trunk).inUse, ⟨.lines, l, 3⟩),
             (decide ((p.station x.station).kind ≠ some .cellar), ⟨.lines, l, 4⟩),
             (x.chain.any fun i => !decide ((p.source i).bound.map (·.1) = some x.station ∧ (p.source i).state = .loaded
                ∧ (p.source i).keg.map (·.product) = some x.product), ⟨.lines, l, 5⟩)])
      ++ ((List.range 96).flatMap fun i =>
          [((p.tap i).station.any fun b => decide ((p.station b.1).kind ≠ some .tap ∨ (p.station b.1).taps ≤ b.2), ⟨.taps, i, 6⟩),
           ((p.tap i).line.any fun l => decide (p.line l = none), ⟨.taps, i, 7⟩)])
      ++ ((List.range 6).map fun i => ((p.programme i).any fun g => !g.valid, ⟨.programmes, i, 8⟩))
    p.liveFault = (checks.find? (·.1)).map (·.2)
    ∧ (p.sbc.scan ≠ none → exec (.goLive h) s = .next (s.declined Kind.goLive h .inUse Config.noFieldDetail []))
    ∧ (∀ f, p.sbc.scan = none → p.liveFault = some f →
        exec (.goLive h) s = .next (s.declined Kind.goLive h .refusedState Config.noFieldDetail
          (leBytes 1 (tableNum f.table) ++ leBytes 1 f.index ++ leBytes 1 f.check)))
    ∧ (p.sbc.scan = none → p.liveFault = none → ∃ q : Plant,
        exec (.goLive h) s = .next (s.answered Kind.goLive h
          (leBytes 2 ((List.range 48).filter fun l => (q.line l).any fun x => x.state = .serving).length) q)
        ∧ q.msc = { p.msc with mode := .live, liveAt := some p.clock } ∧ q.au.period = 1 ∧ q.au.openedAt = p.clock
        ∧ p.startEntry = .start ((List.range 32).filter fun i => p.product i ≠ none).length (stations .tap) (stations .cellar)
            (stations .cooling) (stations .cleaning) ((List.range 48).filter fun l => (p.line l).isSome).length
            ((List.range 96).filter fun i => (p.tap i).line ≠ none).length ((List.range 8).filter fun i => (p.trunk i).inUse).length
            ((List.range 6).filter fun i => (p.programme i).isSome).length
            ((List.range 64).filter fun i => (p.source i).state = .loaded).length
        ∧ (p.room = true → ∃ e rest, q.au.journal = p.au.journal ++ e :: rest ∧ e.seq = p.au.nextSeq ∧ e.body = p.startEntry
            ∧ (p.msc.stop = .clear → rest = [])
            ∧ (∀ source, p.msc.stop ≠ .clear → p.msc.source = some source → 2 ≤ 2048 - p.fill - p.au.reserved →
                ∃ f, rest = [f] ∧ f.seq = p.au.nextSeq + 1 ∧ f.time = p.clock ∧ f.body = .stop true source))
        ∧ (∀ l x, p.line l = some x → ∃ y, q.line l = some y ∧ y.content = x.content ∧ y.chain = x.chain
            ∧ y.unsupervised = !p.active x.station
            ∧ y.state = (if x.declaredOut then .outOfService
                else match x.content with
                  | .beer => if x.chain = [] then .dry else .serving
                  | _ => .locked)
            ∧ (x.content = .beer ∨ (∀ hd rest, x.chain = hd :: rest → (q.source hd).state ≠ .onLine) → y.outlet = q.outletOf y)
            ∧ (∀ hd rest, hd < 64 → x.content = .beer → x.chain = hd :: rest → (q.source hd).state = .onLine))
        ∧ q.cc.state = (match p.addressOf .cooling with
            | some a => if p.active a then
                (if p.cc.stages.toList.all (·.tripped) then .degraded else .running) else p.cc.state
            | none => p.cc.state)
        ∧ p.OnlyIn [.msc, .lm, .pe, .cc, .au] q)
    ∧ (p.liveFault = none →
        stations .cooling = 1
        ∧ (∀ l x, p.line l = some x →
            p.product x.product ≠ none ∧ (p.trunk x.trunk).inUse = true ∧ (p.station x.station).kind = some .cellar
            ∧ ∀ i ∈ x.chain, (p.source i).state = .loaded ∧ (p.source i).bound.map (·.1) = some x.station
                ∧ (p.source i).keg.map (·.product) = some x.product)
        ∧ (∀ i a k, (p.tap i).station = some (a, k) → (p.station a).kind = some .tap ∧ k < (p.station a).taps)
        ∧ (∀ i l, (p.tap i).line = some l → p.line l ≠ none)
        ∧ (∀ i g, p.programme i = some g → g.valid = true))

/-- SET_CLOCK (R174): the part clock takes the value at that arrival, in either mode and with no refusal of its own; it next advances
1000 ms later; the answer carries the value before; no timer, table, journal entry or notice changes. -/
def Obligations.SetClockMovesOnlyTheClock : Prop :=
  ∀ (h : ReqHdr) (value : Word32) (s : State), LinkReady s → h.length = none → Quiet s →
    let m : Msc := { s.plant.msc with partClock := value, clockSince := s.plant.msc.timeBase }
    exec (.setClock h value) s =
        .next (s.answered Kind.setClock h (leBytes 4 s.plant.msc.partClock.toNat) { s.plant with msc := m })
      ∧ ∀ k, Instr.partClockAdvance ∈ ({ s.plant with msc := { m with timeBase := m.timeBase + k } } : Plant).dueCommands ↔ 1000 ≤ k

/-- STOP, RESUME and the pin's events (R179 to R182). Each change of the stop state raises STOP_STATE (R178). An onset, by request or by the
pin's fall in CLEAR, raises STOP_ACTIVE, ends every POURING pour with STOP, interrupts every changeover attempt, in ascending line number
(R20; DESIGN CHOICE, log 89), their entries before those of CS (DESIGN CHOICE, log 93), sets CS's hold, aborts every job that holds a
circuit with cause STOP, or fails its flush if it is in FLUSHING (R152, R151), oldest first (DESIGN CHOICE, log 86), their flow requests
written off as log 78 says (DESIGN CHOICE), and makes CLOSE_ALL due, one also where that of an onset before it still waits (DESIGN CHOICE,
log 71); a STOP while stop is in force changes nothing; RESUME ends a RELEASABLE stop alone; a fall in RELEASABLE makes the state ACTIVE and
tells no block; a rise in ACTIVE makes it RELEASABLE. CS then judges its jobs (DESIGN CHOICE, log 10). The detail of RESUME's refusal is a
free value (DESIGN CHOICE, log 7). A pin event that does not arise changes nothing (DESIGN CHOICE, log 3). -/
def Obligations.TheStopFollowsRequestsAndPin : Prop :=
  (∀ (h : ReqHdr) (s : State),
     let p := s.plant
     (Ready Kind.stop h s → p.msc.stop ≠ .clear → exec (.stop h) s = .next (s.answered Kind.stop h [] p.csSettle))
     ∧ (Ready Kind.stop h s → p.msc.stop = .clear → ∃ q : Plant,
         exec (.stop h) s = .next (s.answered Kind.stop h [] q.csSettle)
         ∧ p.StopTaken (if p.msc.pinLow then .active else .releasable) .request q ∧ q.msc.pinLow = p.msc.pinLow)
     ∧ (Ready Kind.resume h s → ∃ q : Plant,
         exec (.resume h) s =
           .next (s.checked Kind.resume h [(p.msc.stop ≠ .releasable, .refusedState, Config.noFieldDetail)]
             (s.answered Kind.resume h [] q.csSettle))
         ∧ q.msc = { p.msc with stop := .clear, source := none, stopActive := false } ∧ q.cs = { p.cs with hold := false }
         ∧ q.au = (if p.live then (p.record (.stop false .request)).au else p.au)
         ∧ ⟨.stopState, 0, 0, 0, p.clock⟩ ∈ q.raised
         ∧ (∀ i < 96, (p.tap i).line ≠ none → (q.tap i).holds.stop = false)
         ∧ p.OnlyIn [.msc, .pe, .cs, .au] q))
  ∧ (∀ s : State,
       let p := s.plant
       (p.msc.stop = .clear → ∃ q : Plant,
         exec .cellarStopPinFall s = .next (s.arrived q.csSettle) ∧ p.StopTaken .active .pin q ∧ q.msc.pinLow = true)
       ∧ (p.msc.stop = .releasable →
           let q : Plant := { p with
             msc := { p.msc with pinLow := true, stop := .active, source := some .pin }
             raised := p.raised ++ [⟨.stopState, 0, 1, 0, p.clock⟩] }
           exec .cellarStopPinFall s = .next (s.arrived q.csSettle))
       ∧ (p.msc.stop = .active →
           exec .cellarStopPinFall s = .next s
           ∧ exec .cellarStopPinRise s = .next (s.arrived { p with
             msc := { p.msc with pinLow := false, stop := .releasable }
             raised := p.raised ++ [⟨.stopState, 0, 2, match p.msc.source with | some x => x.num | none => 0, p.clock⟩] }))
       ∧ (p.msc.stop ≠ .active → exec .cellarStopPinRise s = .next s))

/-- DEVICE_RESET (R178): every block is as after reset, whatever it was; with the pin HIGH no stop is in force; with it LOW the state
is ACTIVE with source PIN, its notice waits, CLOSE_ALL is due, CS's queue hold is set, and no entry is written. That the commands
waiting in the queue stay is the model's choice (DESIGN CHOICE, log 41). -/
def Obligations.DeviceResetLeavesTheResetState : Prop :=
  ∀ s : State,
    exec (.deviceReset false) s = .next { State.reset with pending := s.pending }
    ∧ ∃ q : Plant,
        exec (.deviceReset true) s = .next { State.reset with
          pending := s.pending
          plant := q
          hl := { Hl.reset with notices := [⟨.stopState, 0, 1, 0, 0⟩], attn := true } }
        ∧ q.msc = { Msc.reset with
            stop := .active, source := some .pin, pinLow := true, stopActive := true, lastOnset := some 0 }
        ∧ q.sbc = { Sbc.reset with closeAllDue := true } ∧ q.cs = { Cs.reset with hold := true }
        ∧ q.lm = Lm.reset ∧ q.tkm = Tkm.reset ∧ q.pe = Pe.reset ∧ q.cc = Cc.reset ∧ q.au = Au.reset ∧ q.raised = []
end

