-- ==== Sys2Proof/Laws/State.lean ====
section
/-!
SUPPORT. What the updates of the state leave as it is, and what a written entry reads as.
-/

namespace Sys2Proof.Machine

/-! ### Folds -/

/-- A fold keeps what each of its steps keeps. -/
theorem foldl_keeps {α β : Type} (g : Plant → β) (f : Plant → α → Plant) (h : ∀ q a, g (f q a) = g q) (l : List α) (p : Plant) :
    g (l.foldl f p) = g p := by
  induction l generalizing p with
  | nil => rfl
  | cons a l ih => rw [List.foldl_cons, ih, h]

@[simp] theorem foldl_msc {α : Type} (f : Plant → α → Plant) (h : ∀ q a, (f q a).msc = q.msc) (l : List α) (p : Plant) :
    (l.foldl f p).msc = p.msc := foldl_keeps Plant.msc f h l p

theorem ite_msc (c : Prop) [Decidable c] (p q : Plant) : (if c then p else q).msc = if c then p.msc else q.msc := apply_ite Plant.msc c p q

@[simp] theorem foldl_sbc {α : Type} (f : Plant → α → Plant) (h : ∀ q a, (f q a).sbc = q.sbc) (l : List α) (p : Plant) :
    (l.foldl f p).sbc = p.sbc := foldl_keeps Plant.sbc f h l p

theorem ite_sbc (c : Prop) [Decidable c] (p q : Plant) : (if c then p else q).sbc = if c then p.sbc else q.sbc := apply_ite Plant.sbc c p q

@[simp] theorem foldl_lm {α : Type} (f : Plant → α → Plant) (h : ∀ q a, (f q a).lm = q.lm) (l : List α) (p : Plant) :
    (l.foldl f p).lm = p.lm := foldl_keeps Plant.lm f h l p

theorem ite_lm (c : Prop) [Decidable c] (p q : Plant) : (if c then p else q).lm = if c then p.lm else q.lm := apply_ite Plant.lm c p q

@[simp] theorem foldl_tkm {α : Type} (f : Plant → α → Plant) (h : ∀ q a, (f q a).tkm = q.tkm) (l : List α) (p : Plant) :
    (l.foldl f p).tkm = p.tkm := foldl_keeps Plant.tkm f h l p

theorem ite_tkm (c : Prop) [Decidable c] (p q : Plant) : (if c then p else q).tkm = if c then p.tkm else q.tkm := apply_ite Plant.tkm c p q

@[simp] theorem foldl_pe {α : Type} (f : Plant → α → Plant) (h : ∀ q a, (f q a).pe = q.pe) (l : List α) (p : Plant) :
    (l.foldl f p).pe = p.pe := foldl_keeps Plant.pe f h l p

theorem ite_pe (c : Prop) [Decidable c] (p q : Plant) : (if c then p else q).pe = if c then p.pe else q.pe := apply_ite Plant.pe c p q

@[simp] theorem foldl_cc {α : Type} (f : Plant → α → Plant) (h : ∀ q a, (f q a).cc = q.cc) (l : List α) (p : Plant) :
    (l.foldl f p).cc = p.cc := foldl_keeps Plant.cc f h l p

theorem ite_cc (c : Prop) [Decidable c] (p q : Plant) : (if c then p else q).cc = if c then p.cc else q.cc := apply_ite Plant.cc c p q

@[simp] theorem foldl_cs {α : Type} (f : Plant → α → Plant) (h : ∀ q a, (f q a).cs = q.cs) (l : List α) (p : Plant) :
    (l.foldl f p).cs = p.cs := foldl_keeps Plant.cs f h l p

theorem ite_cs (c : Prop) [Decidable c] (p q : Plant) : (if c then p else q).cs = if c then p.cs else q.cs := apply_ite Plant.cs c p q

@[simp] theorem foldl_au {α : Type} (f : Plant → α → Plant) (h : ∀ q a, (f q a).au = q.au) (l : List α) (p : Plant) :
    (l.foldl f p).au = p.au := foldl_keeps Plant.au f h l p

theorem ite_au (c : Prop) [Decidable c] (p q : Plant) : (if c then p else q).au = if c then p.au else q.au := apply_ite Plant.au c p q

@[simp] theorem foldl_raised {α : Type} (f : Plant → α → Plant) (h : ∀ q a, (f q a).raised = q.raised) (l : List α) (p : Plant) :
    (l.foldl f p).raised = p.raised := foldl_keeps Plant.raised f h l p

theorem ite_raised (c : Prop) [Decidable c] (p q : Plant) : (if c then p else q).raised = if c then p.raised else q.raised := apply_ite Plant.raised c p q

@[simp] theorem Plant.setStation_frame (p : Plant) (a : Nat) (v : Station) :
    (p.setStation a v).msc = p.msc ∧ (p.setStation a v).lm = p.lm ∧ (p.setStation a v).tkm = p.tkm ∧ (p.setStation a v).pe = p.pe ∧ (p.setStation a v).cc = p.cc ∧ (p.setStation a v).cs = p.cs ∧ (p.setStation a v).au = p.au ∧ (p.setStation a v).raised = p.raised := by
  unfold Plant.setStation; (repeat' split) <;> simp

@[simp] theorem Plant.setProduct_frame (p : Plant) (i : Nat) (v : Option Product) :
    (p.setProduct i v).msc = p.msc ∧ (p.setProduct i v).sbc = p.sbc ∧ (p.setProduct i v).tkm = p.tkm ∧ (p.setProduct i v).pe = p.pe ∧ (p.setProduct i v).cc = p.cc ∧ (p.setProduct i v).cs = p.cs ∧ (p.setProduct i v).au = p.au ∧ (p.setProduct i v).raised = p.raised := by
  exact ⟨rfl, rfl, rfl, rfl, rfl, rfl, rfl, rfl⟩

@[simp] theorem Plant.setSource_frame (p : Plant) (i : Nat) (v : Source) :
    (p.setSource i v).msc = p.msc ∧ (p.setSource i v).sbc = p.sbc ∧ (p.setSource i v).tkm = p.tkm ∧ (p.setSource i v).pe = p.pe ∧ (p.setSource i v).cc = p.cc ∧ (p.setSource i v).cs = p.cs ∧ (p.setSource i v).au = p.au ∧ (p.setSource i v).raised = p.raised := by
  exact ⟨rfl, rfl, rfl, rfl, rfl, rfl, rfl, rfl⟩

@[simp] theorem Plant.setLine_frame (p : Plant) (i : Nat) (v : Line) :
    (p.setLine i v).msc = p.msc ∧ (p.setLine i v).sbc = p.sbc ∧ (p.setLine i v).tkm = p.tkm ∧ (p.setLine i v).pe = p.pe ∧ (p.setLine i v).cc = p.cc ∧ (p.setLine i v).cs = p.cs ∧ (p.setLine i v).au = p.au ∧ (p.setLine i v).raised = p.raised := by
  exact ⟨rfl, rfl, rfl, rfl, rfl, rfl, rfl, rfl⟩

@[simp] theorem Plant.modLine_frame (p : Plant) (i : Nat) (f : Line → Line) :
    (p.modLine i f).msc = p.msc ∧ (p.modLine i f).sbc = p.sbc ∧ (p.modLine i f).tkm = p.tkm ∧ (p.modLine i f).pe = p.pe ∧ (p.modLine i f).cc = p.cc ∧ (p.modLine i f).cs = p.cs ∧ (p.modLine i f).au = p.au ∧ (p.modLine i f).raised = p.raised := by
  unfold Plant.modLine; (repeat' split) <;> simp

@[simp] theorem Plant.setTicket_frame (p : Plant) (i : Nat) (v : Option Ticket) :
    (p.setTicket i v).msc = p.msc ∧ (p.setTicket i v).sbc = p.sbc ∧ (p.setTicket i v).lm = p.lm ∧ (p.setTicket i v).pe = p.pe ∧ (p.setTicket i v).cc = p.cc ∧ (p.setTicket i v).cs = p.cs ∧ (p.setTicket i v).au = p.au ∧ (p.setTicket i v).raised = p.raised := by
  exact ⟨rfl, rfl, rfl, rfl, rfl, rfl, rfl, rfl⟩

@[simp] theorem Plant.setQueue_frame (p : Plant) (a : Nat) (q : List Nat) :
    (p.setQueue a q).msc = p.msc ∧ (p.setQueue a q).sbc = p.sbc ∧ (p.setQueue a q).lm = p.lm ∧ (p.setQueue a q).pe = p.pe ∧ (p.setQueue a q).cc = p.cc ∧ (p.setQueue a q).cs = p.cs ∧ (p.setQueue a q).au = p.au ∧ (p.setQueue a q).raised = p.raised := by
  unfold Plant.setQueue; (repeat' split) <;> simp

@[simp] theorem Plant.setTap_frame (p : Plant) (i : Nat) (v : Tap) :
    (p.setTap i v).msc = p.msc ∧ (p.setTap i v).sbc = p.sbc ∧ (p.setTap i v).lm = p.lm ∧ (p.setTap i v).tkm = p.tkm ∧ (p.setTap i v).cc = p.cc ∧ (p.setTap i v).cs = p.cs ∧ (p.setTap i v).au = p.au ∧ (p.setTap i v).raised = p.raised := by
  exact ⟨rfl, rfl, rfl, rfl, rfl, rfl, rfl, rfl⟩

@[simp] theorem Plant.modTap_frame (p : Plant) (i : Nat) (f : Tap → Tap) :
    (p.modTap i f).msc = p.msc ∧ (p.modTap i f).sbc = p.sbc ∧ (p.modTap i f).lm = p.lm ∧ (p.modTap i f).tkm = p.tkm ∧ (p.modTap i f).cc = p.cc ∧ (p.modTap i f).cs = p.cs ∧ (p.modTap i f).au = p.au ∧ (p.modTap i f).raised = p.raised := by
  exact ⟨rfl, rfl, rfl, rfl, rfl, rfl, rfl, rfl⟩

@[simp] theorem Plant.setLineView_frame (p : Plant) (l : Nat) (v : LineView) :
    (p.setLineView l v).msc = p.msc ∧ (p.setLineView l v).sbc = p.sbc ∧ (p.setLineView l v).lm = p.lm ∧ (p.setLineView l v).tkm = p.tkm ∧ (p.setLineView l v).cc = p.cc ∧ (p.setLineView l v).cs = p.cs ∧ (p.setLineView l v).au = p.au ∧ (p.setLineView l v).raised = p.raised := by
  exact ⟨rfl, rfl, rfl, rfl, rfl, rfl, rfl, rfl⟩

@[simp] theorem Plant.setTrunkView_frame (p : Plant) (t : Nat) (v : TrunkState) :
    (p.setTrunkView t v).msc = p.msc ∧ (p.setTrunkView t v).sbc = p.sbc ∧ (p.setTrunkView t v).lm = p.lm ∧ (p.setTrunkView t v).tkm = p.tkm ∧ (p.setTrunkView t v).cc = p.cc ∧ (p.setTrunkView t v).cs = p.cs ∧ (p.setTrunkView t v).au = p.au ∧ (p.setTrunkView t v).raised = p.raised := by
  exact ⟨rfl, rfl, rfl, rfl, rfl, rfl, rfl, rfl⟩

@[simp] theorem Plant.setFlow_frame (p : Plant) (l : Nat) (v : Bool) :
    (p.setFlow l v).msc = p.msc ∧ (p.setFlow l v).sbc = p.sbc ∧ (p.setFlow l v).lm = p.lm ∧ (p.setFlow l v).tkm = p.tkm ∧ (p.setFlow l v).cc = p.cc ∧ (p.setFlow l v).cs = p.cs ∧ (p.setFlow l v).au = p.au ∧ (p.setFlow l v).raised = p.raised := by
  exact ⟨rfl, rfl, rfl, rfl, rfl, rfl, rfl, rfl⟩

@[simp] theorem Plant.setMarks_frame (p : Plant) (a : Nat) (m : Marks) :
    (p.setMarks a m).msc = p.msc ∧ (p.setMarks a m).sbc = p.sbc ∧ (p.setMarks a m).lm = p.lm ∧ (p.setMarks a m).tkm = p.tkm ∧ (p.setMarks a m).cc = p.cc ∧ (p.setMarks a m).cs = p.cs ∧ (p.setMarks a m).au = p.au ∧ (p.setMarks a m).raised = p.raised := by
  unfold Plant.setMarks; (repeat' split) <;> simp

@[simp] theorem Plant.setStage_frame (p : Plant) (i : Nat) (v : Stage) :
    (p.setStage i v).msc = p.msc ∧ (p.setStage i v).sbc = p.sbc ∧ (p.setStage i v).lm = p.lm ∧ (p.setStage i v).tkm = p.tkm ∧ (p.setStage i v).pe = p.pe ∧ (p.setStage i v).cs = p.cs ∧ (p.setStage i v).au = p.au ∧ (p.setStage i v).raised = p.raised := by
  exact ⟨rfl, rfl, rfl, rfl, rfl, rfl, rfl, rfl⟩

@[simp] theorem Plant.setTrunk_frame (p : Plant) (i : Nat) (v : Trunk) :
    (p.setTrunk i v).msc = p.msc ∧ (p.setTrunk i v).sbc = p.sbc ∧ (p.setTrunk i v).lm = p.lm ∧ (p.setTrunk i v).tkm = p.tkm ∧ (p.setTrunk i v).pe = p.pe ∧ (p.setTrunk i v).cs = p.cs ∧ (p.setTrunk i v).au = p.au ∧ (p.setTrunk i v).raised = p.raised := by
  exact ⟨rfl, rfl, rfl, rfl, rfl, rfl, rfl, rfl⟩

@[simp] theorem Plant.setProgramme_frame (p : Plant) (i : Nat) (v : Option Programme) :
    (p.setProgramme i v).msc = p.msc ∧ (p.setProgramme i v).sbc = p.sbc ∧ (p.setProgramme i v).lm = p.lm ∧ (p.setProgramme i v).tkm = p.tkm ∧ (p.setProgramme i v).pe = p.pe ∧ (p.setProgramme i v).cc = p.cc ∧ (p.setProgramme i v).au = p.au ∧ (p.setProgramme i v).raised = p.raised := by
  exact ⟨rfl, rfl, rfl, rfl, rfl, rfl, rfl, rfl⟩

@[simp] theorem Plant.setCircuit_frame (p : Plant) (i : Nat) (v : Circuit) :
    (p.setCircuit i v).msc = p.msc ∧ (p.setCircuit i v).sbc = p.sbc ∧ (p.setCircuit i v).lm = p.lm ∧ (p.setCircuit i v).tkm = p.tkm ∧ (p.setCircuit i v).pe = p.pe ∧ (p.setCircuit i v).cc = p.cc ∧ (p.setCircuit i v).au = p.au ∧ (p.setCircuit i v).raised = p.raised := by
  exact ⟨rfl, rfl, rfl, rfl, rfl, rfl, rfl, rfl⟩

@[simp] theorem Plant.modJob_frame (p : Plant) (id : Nat) (f : Job → Job) :
    (p.modJob id f).msc = p.msc ∧ (p.modJob id f).sbc = p.sbc ∧ (p.modJob id f).lm = p.lm ∧ (p.modJob id f).tkm = p.tkm ∧ (p.modJob id f).pe = p.pe ∧ (p.modJob id f).cc = p.cc ∧ (p.modJob id f).au = p.au ∧ (p.modJob id f).raised = p.raised := by
  exact ⟨rfl, rfl, rfl, rfl, rfl, rfl, rfl, rfl⟩

@[simp] theorem Plant.raise_frame (p : Plant) (k : NoticeKind) (subject first second : Nat) :
    (p.raise k subject first second).msc = p.msc ∧ (p.raise k subject first second).sbc = p.sbc ∧ (p.raise k subject first second).lm = p.lm ∧ (p.raise k subject first second).tkm = p.tkm ∧ (p.raise k subject first second).pe = p.pe ∧ (p.raise k subject first second).cc = p.cc ∧ (p.raise k subject first second).cs = p.cs ∧ (p.raise k subject first second).au = p.au := by
  exact ⟨rfl, rfl, rfl, rfl, rfl, rfl, rfl, rfl⟩

/-! ### Reading back a written entry -/

theorem getD_setIfInBounds {α : Type} {n : Nat} (v : Vector α n) (i j : Nat) (x d : α) :
    ((v.setIfInBounds i x)[j]?).getD d = if i = j ∧ i < n then x else (v[j]?).getD d := by
  rw [Vector.getElem?_setIfInBounds]
  by_cases h : i = j
  · subst h
    by_cases hn : i < n
    · simp [hn]
    · simp [hn]
  · simp [h]

theorem Plant.product_setProduct (p : Plant) (i j : Nat) (v : Option Product) :
    (p.setProduct i v).product j = if i = j ∧ i < 32 then v else p.product j := getD_setIfInBounds _ _ _ _ _

theorem Plant.source_setSource (p : Plant) (i j : Nat) (v : Source) :
    (p.setSource i v).source j = if i = j ∧ i < 64 then v else p.source j := getD_setIfInBounds _ _ _ _ _

theorem Plant.line_setLine (p : Plant) (i j : Nat) (v : Line) :
    (p.setLine i v).line j = if i = j ∧ i < 48 then some v else p.line j := getD_setIfInBounds _ _ _ _ _

/-- A change of a line is read back from it, and from it alone. -/
theorem Plant.line_modLine (p : Plant) (l m : Nat) (f : Line → Line) :
    (p.modLine l f).line m = if l = m then (p.line m).map f else p.line m := by
  unfold Plant.modLine
  cases h : p.line l with
  | none =>
    by_cases e : l = m
    · subst e; simp [h]
    · simp [e]
  | some x =>
    have hl : l < 48 := by
      by_contra hl
      simp [Plant.line, hl] at h
    simp only [Plant.line_setLine, hl, and_true]
    by_cases e : l = m
    · subst e; simp [h]
    · simp [e]

theorem Plant.ticket_setTicket (p : Plant) (i j : Nat) (v : Option Ticket) :
    (p.setTicket i v).ticket j = if i = j ∧ i < 160 then v else p.ticket j := getD_setIfInBounds _ _ _ _ _

theorem Plant.tap_setTap (p : Plant) (i j : Nat) (v : Tap) :
    (p.setTap i v).tap j = if i = j ∧ i < 96 then v else p.tap j := getD_setIfInBounds _ _ _ _ _

theorem Plant.lineView_setLineView (p : Plant) (i j : Nat) (v : LineView) :
    (p.setLineView i v).lineView j = if i = j ∧ i < 48 then some v else p.lineView j := getD_setIfInBounds _ _ _ _ _

theorem Plant.trunkView_setTrunkView (p : Plant) (i j : Nat) (v : TrunkState) :
    (p.setTrunkView i v).trunkView j = if i = j ∧ i < 8 then v else p.trunkView j := getD_setIfInBounds _ _ _ _ _

theorem Plant.flow_setFlow (p : Plant) (i j : Nat) (v : Bool) :
    (p.setFlow i v).flow j = if i = j ∧ i < 48 then v else p.flow j := getD_setIfInBounds _ _ _ _ _

theorem Plant.stage_setStage (p : Plant) (i j : Nat) (v : Stage) :
    (p.setStage i v).stage j = if i = j ∧ i < 3 then v else p.stage j := getD_setIfInBounds _ _ _ _ _

theorem Plant.trunk_setTrunk (p : Plant) (i j : Nat) (v : Trunk) :
    (p.setTrunk i v).trunk j = if i = j ∧ i < 8 then v else p.trunk j := getD_setIfInBounds _ _ _ _ _

theorem Plant.programme_setProgramme (p : Plant) (i j : Nat) (v : Option Programme) :
    (p.setProgramme i v).programme j = if i = j ∧ i < 6 then v else p.programme j := getD_setIfInBounds _ _ _ _ _

theorem Plant.circuit_setCircuit (p : Plant) (i j : Nat) (v : Circuit) :
    (p.setCircuit i v).circuit j = if i = j ∧ i < 2 then v else p.circuit j := getD_setIfInBounds _ _ _ _ _

theorem Plant.station_setStation (p : Plant) (a b : Nat) (v : Station) :
    (p.setStation a v).station b = if a = b ∧ 1 ≤ a ∧ a ≤ 30 then v else p.station b := by
  unfold Plant.setStation Plant.station
  by_cases ha : a = 0
  · simp [ha]
  · by_cases hb : b = 0
    · have : ¬ a = b := by omega
      simp [ha, hb]
    · simp only [ha, hb, if_false]
      rw [getD_setIfInBounds]
      congr 1
      simp only [eq_iff_iff]
      omega

theorem Plant.queue_setQueue (p : Plant) (a b : Nat) (v : List Nat) :
    (p.setQueue a v).queue b = if a = b ∧ 1 ≤ a ∧ a ≤ 30 then v else p.queue b := by
  unfold Plant.setQueue Plant.queue
  by_cases ha : a = 0
  · simp [ha]
  · by_cases hb : b = 0
    · have : ¬ a = b := by omega
      simp [ha, hb]
    · simp only [ha, hb, if_false]
      rw [getD_setIfInBounds]
      congr 1
      simp only [eq_iff_iff]
      omega

theorem Plant.marksOf_setMarks (p : Plant) (a b : Nat) (v : Marks) :
    (p.setMarks a v).marksOf b = if a = b ∧ 1 ≤ a ∧ a ≤ 30 then v else p.marksOf b := by
  unfold Plant.setMarks Plant.marksOf
  by_cases ha : a = 0
  · simp [ha]
  · by_cases hb : b = 0
    · have : ¬ a = b := by omega
      simp [ha, hb]
    · simp only [ha, hb, if_false]
      rw [getD_setIfInBounds]
      congr 1
      simp only [eq_iff_iff]
      omega

/-! ### Accessors read only their own block -/

theorem Plant.station_congr {p q : Plant} (h : p.sbc = q.sbc) (a : Nat) : p.station a = q.station a := by unfold Plant.station; rw [h]
theorem Plant.product_congr {p q : Plant} (h : p.lm = q.lm) (i : Nat) : p.product i = q.product i := by unfold Plant.product; rw [h]
theorem Plant.source_congr {p q : Plant} (h : p.lm = q.lm) (i : Nat) : p.source i = q.source i := by unfold Plant.source; rw [h]
theorem Plant.line_congr {p q : Plant} (h : p.lm = q.lm) (i : Nat) : p.line i = q.line i := by unfold Plant.line; rw [h]
theorem Plant.ticket_congr {p q : Plant} (h : p.tkm = q.tkm) (i : Nat) : p.ticket i = q.ticket i := by unfold Plant.ticket; rw [h]
theorem Plant.queue_congr {p q : Plant} (h : p.tkm = q.tkm) (a : Nat) : p.queue a = q.queue a := by unfold Plant.queue; rw [h]
theorem Plant.tap_congr {p q : Plant} (h : p.pe = q.pe) (i : Nat) : p.tap i = q.tap i := by unfold Plant.tap; rw [h]
theorem Plant.lineView_congr {p q : Plant} (h : p.pe = q.pe) (i : Nat) : p.lineView i = q.lineView i := by unfold Plant.lineView; rw [h]
theorem Plant.trunkView_congr {p q : Plant} (h : p.pe = q.pe) (i : Nat) : p.trunkView i = q.trunkView i := by unfold Plant.trunkView; rw [h]
theorem Plant.trunk_congr {p q : Plant} (h : p.cc = q.cc) (i : Nat) : p.trunk i = q.trunk i := by unfold Plant.trunk; rw [h]
theorem Plant.programme_congr {p q : Plant} (h : p.cs = q.cs) (i : Nat) : p.programme i = q.programme i := by unfold Plant.programme; rw [h]
theorem Plant.circuit_congr {p q : Plant} (h : p.cs = q.cs) (i : Nat) : p.circuit i = q.circuit i := by unfold Plant.circuit; rw [h]
theorem Plant.job_congr {p q : Plant} (h : p.cs = q.cs) (id : Nat) : p.job id = q.job id := by unfold Plant.job; rw [h]

end Sys2Proof.Machine
end

