-- ==== Sys2Proof/Laws/Lines.lean ====
section
/-!
SUPPORT. What the operations of AU, PE, TKM and LM leave as it is, block by block.
-/

namespace Sys2Proof.Machine

/-! ### Journal -/

@[simp] theorem Plant.append_frame (p : Plant) (b : EntryBody) :
    (p.append b).msc = p.msc ∧ (p.append b).sbc = p.sbc ∧ (p.append b).lm = p.lm ∧ (p.append b).tkm = p.tkm ∧ (p.append b).pe = p.pe ∧ (p.append b).cc = p.cc ∧ (p.append b).cs = p.cs := by
  unfold Plant.append; (repeat' split) <;> simp

@[simp] theorem Plant.record_frame (p : Plant) (b : EntryBody) :
    (p.record b).msc = p.msc ∧ (p.record b).sbc = p.sbc ∧ (p.record b).lm = p.lm ∧ (p.record b).tkm = p.tkm ∧ (p.record b).pe = p.pe ∧ (p.record b).cc = p.cc ∧ (p.record b).cs = p.cs := by
  unfold Plant.record; (repeat' split) <;> simp

@[simp] theorem Plant.reserve_frame (p : Plant) :
    (p.reserve).msc = p.msc ∧ (p.reserve).sbc = p.sbc ∧ (p.reserve).lm = p.lm ∧ (p.reserve).tkm = p.tkm ∧ (p.reserve).pe = p.pe ∧ (p.reserve).cc = p.cc ∧ (p.reserve).cs = p.cs ∧ (p.reserve).raised = p.raised := by
  exact ⟨rfl, rfl, rfl, rfl, rfl, rfl, rfl, rfl⟩

@[simp] theorem Plant.refuseReservation_frame (p : Plant) :
    (p.refuseReservation).msc = p.msc ∧ (p.refuseReservation).sbc = p.sbc ∧ (p.refuseReservation).lm = p.lm ∧ (p.refuseReservation).tkm = p.tkm ∧ (p.refuseReservation).pe = p.pe ∧ (p.refuseReservation).cc = p.cc ∧ (p.refuseReservation).cs = p.cs := by
  unfold Plant.refuseReservation; (repeat' split) <;> simp

@[simp] theorem Plant.recordPour_frame (p : Plant) (b : EntryBody) :
    (p.recordPour b).msc = p.msc ∧ (p.recordPour b).sbc = p.sbc ∧ (p.recordPour b).lm = p.lm ∧ (p.recordPour b).tkm = p.tkm ∧ (p.recordPour b).pe = p.pe ∧ (p.recordPour b).cc = p.cc ∧ (p.recordPour b).cs = p.cs := by
  simp [Plant.recordPour]

@[simp] theorem Plant.setTotals_frame (p : Plant) (i : Nat) (t : Totals × Totals) :
    (p.setTotals i t).msc = p.msc ∧ (p.setTotals i t).sbc = p.sbc ∧ (p.setTotals i t).lm = p.lm ∧ (p.setTotals i t).tkm = p.tkm ∧ (p.setTotals i t).pe = p.pe ∧ (p.setTotals i t).cc = p.cc ∧ (p.setTotals i t).cs = p.cs ∧ (p.setTotals i t).raised = p.raised := by
  exact ⟨rfl, rfl, rfl, rfl, rfl, rfl, rfl, rfl⟩

@[simp] theorem Plant.addProduct_frame (p : Plant) (i : Option Nat) (c : Category) (ml pours : Nat) :
    (p.addProduct i c ml pours).msc = p.msc ∧ (p.addProduct i c ml pours).sbc = p.sbc ∧ (p.addProduct i c ml pours).lm = p.lm ∧ (p.addProduct i c ml pours).tkm = p.tkm ∧ (p.addProduct i c ml pours).pe = p.pe ∧ (p.addProduct i c ml pours).cc = p.cc ∧ (p.addProduct i c ml pours).cs = p.cs ∧ (p.addProduct i c ml pours).raised = p.raised := by
  unfold Plant.addProduct; (repeat' split) <;> simp

@[simp] theorem Plant.addShort_frame (p : Plant) (i : Nat) :
    (p.addShort i).msc = p.msc ∧ (p.addShort i).sbc = p.sbc ∧ (p.addShort i).lm = p.lm ∧ (p.addShort i).tkm = p.tkm ∧ (p.addShort i).pe = p.pe ∧ (p.addShort i).cc = p.cc ∧ (p.addShort i).cs = p.cs ∧ (p.addShort i).raised = p.raised := by
  exact ⟨rfl, rfl, rfl, rfl, rfl, rfl, rfl, rfl⟩

@[simp] theorem Plant.addTap_frame (p : Plant) (t ml pours : Nat) :
    (p.addTap t ml pours).msc = p.msc ∧ (p.addTap t ml pours).sbc = p.sbc ∧ (p.addTap t ml pours).lm = p.lm ∧ (p.addTap t ml pours).tkm = p.tkm ∧ (p.addTap t ml pours).pe = p.pe ∧ (p.addTap t ml pours).cc = p.cc ∧ (p.addTap t ml pours).cs = p.cs ∧ (p.addTap t ml pours).raised = p.raised := by
  exact ⟨rfl, rfl, rfl, rfl, rfl, rfl, rfl, rfl⟩

@[simp] theorem Plant.addSource_frame (p : Plant) (i : Option Nat) (ml since : Nat) :
    (p.addSource i ml since).msc = p.msc ∧ (p.addSource i ml since).sbc = p.sbc ∧ (p.addSource i ml since).tkm = p.tkm ∧ (p.addSource i ml since).pe = p.pe ∧ (p.addSource i ml since).cc = p.cc ∧ (p.addSource i ml since).cs = p.cs ∧ (p.addSource i ml since).au = p.au ∧ (p.addSource i ml since).raised = p.raised := by
  unfold Plant.addSource; (repeat' split) <;> simp

@[simp] theorem Plant.countClose_frame (p : Plant) (o : Outcome) (product : Nat) :
    (p.countClose o product).msc = p.msc ∧ (p.countClose o product).sbc = p.sbc ∧ (p.countClose o product).lm = p.lm ∧ (p.countClose o product).tkm = p.tkm ∧ (p.countClose o product).pe = p.pe ∧ (p.countClose o product).cc = p.cc ∧ (p.countClose o product).cs = p.cs ∧ (p.countClose o product).raised = p.raised := by
  unfold Plant.countClose; (repeat' split) <;> simp

@[simp] theorem Plant.countIssue_frame (p : Plant) :
    (p.countIssue).msc = p.msc ∧ (p.countIssue).sbc = p.sbc ∧ (p.countIssue).lm = p.lm ∧ (p.countIssue).tkm = p.tkm ∧ (p.countIssue).pe = p.pe ∧ (p.countIssue).cc = p.cc ∧ (p.countIssue).cs = p.cs ∧ (p.countIssue).raised = p.raised := by
  exact ⟨rfl, rfl, rfl, rfl, rfl, rfl, rfl, rfl⟩

/-! ### Taps -/

@[simp] theorem Plant.raiseTapState_frame (p : Plant) (i : Nat) (before after : Tap) :
    (p.raiseTapState i before after).msc = p.msc ∧ (p.raiseTapState i before after).sbc = p.sbc ∧ (p.raiseTapState i before after).lm = p.lm ∧ (p.raiseTapState i before after).tkm = p.tkm ∧ (p.raiseTapState i before after).pe = p.pe ∧ (p.raiseTapState i before after).cc = p.cc ∧ (p.raiseTapState i before after).cs = p.cs ∧ (p.raiseTapState i before after).au = p.au := by
  unfold Plant.raiseTapState; (repeat' split) <;> simp

@[simp] theorem Plant.refreshTap_frame (p : Plant) (i : Nat) :
    (p.refreshTap i).msc = p.msc ∧ (p.refreshTap i).sbc = p.sbc ∧ (p.refreshTap i).lm = p.lm ∧ (p.refreshTap i).tkm = p.tkm ∧ (p.refreshTap i).cc = p.cc ∧ (p.refreshTap i).cs = p.cs ∧ (p.refreshTap i).au = p.au := by
  simp [Plant.refreshTap]

@[simp] theorem Plant.refreshTaps_frame (p : Plant) (l : List Nat) :
    (p.refreshTaps l).msc = p.msc ∧ (p.refreshTaps l).sbc = p.sbc ∧ (p.refreshTaps l).lm = p.lm ∧ (p.refreshTaps l).tkm = p.tkm ∧ (p.refreshTaps l).cc = p.cc ∧ (p.refreshTaps l).cs = p.cs ∧ (p.refreshTaps l).au = p.au := by
  simp [Plant.refreshTaps]

@[simp] theorem Plant.refreshMapped_frame (p : Plant) :
    (p.refreshMapped).msc = p.msc ∧ (p.refreshMapped).sbc = p.sbc ∧ (p.refreshMapped).lm = p.lm ∧ (p.refreshMapped).tkm = p.tkm ∧ (p.refreshMapped).cc = p.cc ∧ (p.refreshMapped).cs = p.cs ∧ (p.refreshMapped).au = p.au := by
  simp [Plant.refreshMapped]

@[simp] theorem Plant.changeTap_frame (p : Plant) (i : Nat) (f : Tap → Tap) :
    (p.changeTap i f).msc = p.msc ∧ (p.changeTap i f).sbc = p.sbc ∧ (p.changeTap i f).lm = p.lm ∧ (p.changeTap i f).tkm = p.tkm ∧ (p.changeTap i f).cc = p.cc ∧ (p.changeTap i f).cs = p.cs ∧ (p.changeTap i f).au = p.au := by
  simp [Plant.changeTap]

@[simp] theorem Plant.takeCause_frame (p : Plant) (i : Nat) (c : EndCause) :
    (p.takeCause i c).msc = p.msc ∧ (p.takeCause i c).sbc = p.sbc ∧ (p.takeCause i c).lm = p.lm ∧ (p.takeCause i c).tkm = p.tkm ∧ (p.takeCause i c).cc = p.cc ∧ (p.takeCause i c).cs = p.cs ∧ (p.takeCause i c).au = p.au := by
  unfold Plant.takeCause; (repeat' split) <;> simp

@[simp] theorem Plant.refreshLamps_frame (p : Plant) (l : List Nat) :
    (p.refreshLamps l).msc = p.msc ∧ (p.refreshLamps l).sbc = p.sbc ∧ (p.refreshLamps l).lm = p.lm ∧ (p.refreshLamps l).tkm = p.tkm ∧ (p.refreshLamps l).cc = p.cc ∧ (p.refreshLamps l).cs = p.cs ∧ (p.refreshLamps l).au = p.au ∧ (p.refreshLamps l).raised = p.raised := by
  simp [Plant.refreshLamps]

@[simp] theorem Plant.queueEvent_frame (p : Plant) (a : Nat) :
    (p.queueEvent a).msc = p.msc ∧ (p.queueEvent a).sbc = p.sbc ∧ (p.queueEvent a).lm = p.lm ∧ (p.queueEvent a).tkm = p.tkm ∧ (p.queueEvent a).cc = p.cc ∧ (p.queueEvent a).cs = p.cs ∧ (p.queueEvent a).au = p.au ∧ (p.queueEvent a).raised = p.raised := by
  simp [Plant.queueEvent]

/-! ### Tickets -/

@[simp] theorem Plant.closeTicket_frame (p : Plant) (i : Nat) (o : Outcome) (atPour : Bool) :
    (p.closeTicket i o atPour).msc = p.msc ∧ (p.closeTicket i o atPour).sbc = p.sbc ∧ (p.closeTicket i o atPour).lm = p.lm ∧ (p.closeTicket i o atPour).cc = p.cc ∧ (p.closeTicket i o atPour).cs = p.cs := by
  unfold Plant.closeTicket; (repeat' split) <;> simp

@[simp] theorem Plant.expireTicket_frame (p : Plant) (i : Nat) (o : Outcome) :
    (p.expireTicket i o).msc = p.msc ∧ (p.expireTicket i o).sbc = p.sbc ∧ (p.expireTicket i o).lm = p.lm ∧ (p.expireTicket i o).cc = p.cc ∧ (p.expireTicket i o).cs = p.cs := by
  unfold Plant.expireTicket; (repeat' split) <;> simp

@[simp] theorem Plant.claimTicket_frame (p : Plant) (i tap : Nat) :
    (p.claimTicket i tap).msc = p.msc ∧ (p.claimTicket i tap).sbc = p.sbc ∧ (p.claimTicket i tap).lm = p.lm ∧ (p.claimTicket i tap).cc = p.cc ∧ (p.claimTicket i tap).cs = p.cs ∧ (p.claimTicket i tap).au = p.au ∧ (p.claimTicket i tap).raised = p.raised := by
  unfold Plant.claimTicket; (repeat' split) <;> simp

@[simp] theorem Plant.returnTicket_frame (p : Plant) (i tap : Nat) :
    (p.returnTicket i tap).msc = p.msc ∧ (p.returnTicket i tap).sbc = p.sbc ∧ (p.returnTicket i tap).lm = p.lm ∧ (p.returnTicket i tap).cc = p.cc ∧ (p.returnTicket i tap).cs = p.cs := by
  unfold Plant.returnTicket; (repeat' split) <;> simp

@[simp] theorem Plant.partTicket_frame (p : Plant) (i : Nat) (k : Ticket) (ml : Nat) :
    (p.partTicket i k ml).msc = p.msc ∧ (p.partTicket i k ml).sbc = p.sbc ∧ (p.partTicket i k ml).lm = p.lm ∧ (p.partTicket i k ml).cc = p.cc ∧ (p.partTicket i k ml).cs = p.cs ∧ (p.partTicket i k ml).au = p.au ∧ (p.partTicket i k ml).raised = p.raised := by
  simp [Plant.partTicket]

@[simp] theorem Plant.takeOutcome_frame (p : Plant) (i ml : Nat) (o : Outcome) :
    (p.takeOutcome i ml o).msc = p.msc ∧ (p.takeOutcome i ml o).sbc = p.sbc ∧ (p.takeOutcome i ml o).lm = p.lm ∧ (p.takeOutcome i ml o).cc = p.cc ∧ (p.takeOutcome i ml o).cs = p.cs := by
  unfold Plant.takeOutcome; (repeat' split) <;> simp

@[simp] theorem Plant.validityOut_frame (p : Plant) (i : Nat) :
    (p.validityOut i).msc = p.msc ∧ (p.validityOut i).sbc = p.sbc ∧ (p.validityOut i).lm = p.lm ∧ (p.validityOut i).cc = p.cc ∧ (p.validityOut i).cs = p.cs := by
  unfold Plant.validityOut; (repeat' split) <;> simp

@[simp] theorem Plant.topupOut_frame (p : Plant) (i : Nat) :
    (p.topupOut i).msc = p.msc ∧ (p.topupOut i).sbc = p.sbc ∧ (p.topupOut i).lm = p.lm ∧ (p.topupOut i).cc = p.cc ∧ (p.topupOut i).cs = p.cs := by
  unfold Plant.topupOut; (repeat' split) <;> simp

@[simp] theorem Plant.issueTicket_frame (p : Plant) (i station product portion validity : Nat) (reference : Word32) :
    (p.issueTicket i station product portion validity reference).msc = p.msc ∧ (p.issueTicket i station product portion validity reference).sbc = p.sbc ∧ (p.issueTicket i station product portion validity reference).lm = p.lm ∧ (p.issueTicket i station product portion validity reference).cc = p.cc ∧ (p.issueTicket i station product portion validity reference).cs = p.cs ∧ (p.issueTicket i station product portion validity reference).raised = p.raised := by
  simp [Plant.issueTicket]

/-! ### Kegs -/

@[simp] theorem Plant.modSource_frame (p : Plant) (i : Nat) (f : Source → Source) :
    (p.modSource i f).msc = p.msc ∧ (p.modSource i f).sbc = p.sbc ∧ (p.modSource i f).tkm = p.tkm ∧ (p.modSource i f).pe = p.pe ∧ (p.modSource i f).cc = p.cc ∧ (p.modSource i f).cs = p.cs ∧ (p.modSource i f).au = p.au ∧ (p.modSource i f).raised = p.raised := by
  exact ⟨rfl, rfl, rfl, rfl, rfl, rfl, rfl, rfl⟩

@[simp] theorem Plant.raiseSource_frame (p : Plant) (i : Nat) :
    (p.raiseSource i).msc = p.msc ∧ (p.raiseSource i).sbc = p.sbc ∧ (p.raiseSource i).lm = p.lm ∧ (p.raiseSource i).tkm = p.tkm ∧ (p.raiseSource i).pe = p.pe ∧ (p.raiseSource i).cc = p.cc ∧ (p.raiseSource i).cs = p.cs ∧ (p.raiseSource i).au = p.au := by
  exact ⟨rfl, rfl, rfl, rfl, rfl, rfl, rfl, rfl⟩

@[simp] theorem Plant.setSourceState_frame (p : Plant) (i : Nat) (st : SourceState) :
    (p.setSourceState i st).msc = p.msc ∧ (p.setSourceState i st).sbc = p.sbc ∧ (p.setSourceState i st).tkm = p.tkm ∧ (p.setSourceState i st).pe = p.pe ∧ (p.setSourceState i st).cc = p.cc ∧ (p.setSourceState i st).cs = p.cs ∧ (p.setSourceState i st).au = p.au := by
  exact ⟨rfl, rfl, rfl, rfl, rfl, rfl, rfl⟩

@[simp] theorem Plant.refreshOutlet_frame (p : Plant) (l : Nat) :
    (p.refreshOutlet l).msc = p.msc ∧ (p.refreshOutlet l).sbc = p.sbc ∧ (p.refreshOutlet l).tkm = p.tkm ∧ (p.refreshOutlet l).pe = p.pe ∧ (p.refreshOutlet l).cc = p.cc ∧ (p.refreshOutlet l).cs = p.cs ∧ (p.refreshOutlet l).au = p.au ∧ (p.refreshOutlet l).raised = p.raised := by
  simp [Plant.refreshOutlet]

@[simp] theorem Plant.leaveChain_frame (p : Plant) (i : Nat) :
    (p.leaveChain i).msc = p.msc ∧ (p.leaveChain i).sbc = p.sbc ∧ (p.leaveChain i).tkm = p.tkm ∧ (p.leaveChain i).pe = p.pe ∧ (p.leaveChain i).cc = p.cc ∧ (p.leaveChain i).cs = p.cs ∧ (p.leaveChain i).au = p.au ∧ (p.leaveChain i).raised = p.raised := by
  simp [Plant.leaveChain]

/-- A position that leaves its chain is gone from the chain of every line, and nothing else of a line changes. -/
theorem Plant.line_leaveChain (p : Plant) (i l : Nat) :
    (p.leaveChain i).line l = (p.line l).map (Line.without i) := by
  unfold Plant.leaveChain Plant.line Plant.modSource Plant.setSource
  simp only [Vector.getElem?_map]
  cases p.lm.lines[l]? with
  | none => rfl
  | some d => cases d <;> rfl

/-- A position that leaves its chain loses its owning line, and no position changes otherwise. -/
theorem Plant.source_leaveChain (p : Plant) (i j : Nat) :
    (p.leaveChain i).source j = if i = j ∧ i < 64 then { p.source i with line := none } else p.source j := by
  unfold Plant.leaveChain Plant.modSource
  rw [Plant.source_setSource]
  rfl

@[simp] theorem Plant.kegClose_frame (p : Plant) (i : Nat) :
    (p.kegClose i).msc = p.msc ∧ (p.kegClose i).sbc = p.sbc ∧ (p.kegClose i).lm = p.lm ∧ (p.kegClose i).tkm = p.tkm ∧ (p.kegClose i).pe = p.pe ∧ (p.kegClose i).cc = p.cc ∧ (p.kegClose i).cs = p.cs := by
  unfold Plant.kegClose; (repeat' split) <;> simp [ite_msc, ite_sbc, ite_lm, ite_tkm, ite_pe, ite_cc, ite_cs]

@[simp] theorem Plant.vacate_frame (p : Plant) (i : Nat) :
    (p.vacate i).msc = p.msc ∧ (p.vacate i).sbc = p.sbc ∧ (p.vacate i).tkm = p.tkm ∧ (p.vacate i).pe = p.pe ∧ (p.vacate i).cc = p.cc ∧ (p.vacate i).cs = p.cs ∧ (p.vacate i).au = p.au := by
  exact ⟨rfl, rfl, rfl, rfl, rfl, rfl, rfl⟩

@[simp] theorem Plant.endKeg_frame (p : Plant) (i : Nat) (st : SourceState) :
    (p.endKeg i st).msc = p.msc ∧ (p.endKeg i st).sbc = p.sbc ∧ (p.endKeg i st).tkm = p.tkm ∧ (p.endKeg i st).pe = p.pe ∧ (p.endKeg i st).cc = p.cc ∧ (p.endKeg i st).cs = p.cs := by
  unfold Plant.endKeg; (repeat' split) <;> simp [ite_msc, ite_sbc, ite_tkm, ite_pe, ite_cc, ite_cs]

@[simp] theorem Plant.unloadLoaded_frame (p : Plant) (i : Nat) :
    (p.unloadLoaded i).msc = p.msc ∧ (p.unloadLoaded i).sbc = p.sbc ∧ (p.unloadLoaded i).tkm = p.tkm ∧ (p.unloadLoaded i).pe = p.pe ∧ (p.unloadLoaded i).cc = p.cc ∧ (p.unloadLoaded i).cs = p.cs := by
  unfold Plant.unloadLoaded; (repeat' split) <;> simp [ite_msc, ite_sbc, ite_tkm, ite_pe, ite_cc, ite_cs]

@[simp] theorem Plant.pourOn_frame (p : Plant) (i : Nat) :
    (p.pourOn i).msc = p.msc ∧ (p.pourOn i).sbc = p.sbc ∧ (p.pourOn i).tkm = p.tkm ∧ (p.pourOn i).pe = p.pe ∧ (p.pourOn i).cc = p.cc ∧ (p.pourOn i).cs = p.cs ∧ (p.pourOn i).au = p.au ∧ (p.pourOn i).raised = p.raised := by
  exact ⟨rfl, rfl, rfl, rfl, rfl, rfl, rfl, rfl⟩

@[simp] theorem Plant.pourOff_frame (p : Plant) (i : Nat) :
    (p.pourOff i).msc = p.msc ∧ (p.pourOff i).sbc = p.sbc ∧ (p.pourOff i).tkm = p.tkm ∧ (p.pourOff i).pe = p.pe ∧ (p.pourOff i).cc = p.cc ∧ (p.pourOff i).cs = p.cs := by
  unfold Plant.pourOff; (repeat' split) <;> simp [ite_msc, ite_sbc, ite_tkm, ite_pe, ite_cc, ite_cs]

@[simp] theorem Plant.headOnLine_frame (p : Plant) (l : Nat) :
    (p.headOnLine l).msc = p.msc ∧ (p.headOnLine l).sbc = p.sbc ∧ (p.headOnLine l).tkm = p.tkm ∧ (p.headOnLine l).pe = p.pe ∧ (p.headOnLine l).cc = p.cc ∧ (p.headOnLine l).cs = p.cs ∧ (p.headOnLine l).au = p.au := by
  unfold Plant.headOnLine; (repeat' split) <;> simp

@[simp] theorem Plant.headLoaded_frame (p : Plant) (l : Nat) :
    (p.headLoaded l).msc = p.msc ∧ (p.headLoaded l).sbc = p.sbc ∧ (p.headLoaded l).tkm = p.tkm ∧ (p.headLoaded l).pe = p.pe ∧ (p.headLoaded l).cc = p.cc ∧ (p.headLoaded l).cs = p.cs ∧ (p.headLoaded l).au = p.au := by
  unfold Plant.headLoaded; (repeat' split) <;> simp

@[simp] theorem Plant.unbind_frame (p : Plant) (i : Nat) :
    (p.unbind i).msc = p.msc ∧ (p.unbind i).sbc = p.sbc ∧ (p.unbind i).tkm = p.tkm ∧ (p.unbind i).pe = p.pe ∧ (p.unbind i).cc = p.cc ∧ (p.unbind i).cs = p.cs ∧ (p.unbind i).au = p.au := by
  unfold Plant.unbind; (repeat' split) <;> simp [ite_msc, ite_sbc, ite_tkm, ite_pe, ite_cc, ite_cs, ite_au]

@[simp] theorem Plant.bind_frame (p : Plant) (i a k : Nat) :
    (p.bind i a k).msc = p.msc ∧ (p.bind i a k).sbc = p.sbc ∧ (p.bind i a k).tkm = p.tkm ∧ (p.bind i a k).pe = p.pe ∧ (p.bind i a k).cc = p.cc ∧ (p.bind i a k).cs = p.cs ∧ (p.bind i a k).au = p.au ∧ (p.bind i a k).raised = p.raised := by
  exact ⟨rfl, rfl, rfl, rfl, rfl, rfl, rfl, rfl⟩

/-! ### Lines -/

@[simp] theorem Plant.peLineEvent_frame (p : Plant) (l : Nat) (cause : Option EndCause) :
    (p.peLineEvent l cause).msc = p.msc ∧ (p.peLineEvent l cause).sbc = p.sbc ∧ (p.peLineEvent l cause).lm = p.lm ∧ (p.peLineEvent l cause).tkm = p.tkm ∧ (p.peLineEvent l cause).cc = p.cc ∧ (p.peLineEvent l cause).cs = p.cs ∧ (p.peLineEvent l cause).au = p.au := by
  unfold Plant.peLineEvent; (repeat' split) <;> simp [ite_msc, ite_sbc, ite_lm, ite_tkm, ite_cc, ite_cs, ite_au]

@[simp] theorem Plant.lineEvent_frame (p : Plant) (l : Nat) (cause : Option EndCause) :
    (p.lineEvent l cause).msc = p.msc ∧ (p.lineEvent l cause).sbc = p.sbc ∧ (p.lineEvent l cause).tkm = p.tkm ∧ (p.lineEvent l cause).cc = p.cc ∧ (p.lineEvent l cause).cs = p.cs ∧ (p.lineEvent l cause).au = p.au := by
  unfold Plant.lineEvent; (try dsimp only); (repeat' split) <;> (try dsimp only) <;> (repeat' split) <;> simp

@[simp] theorem Plant.enterLine_frame (p : Plant) (l : Nat) (st : LineState) (c : Content) (cause : Option EndCause) :
    (p.enterLine l st c cause).msc = p.msc ∧ (p.enterLine l st c cause).sbc = p.sbc ∧ (p.enterLine l st c cause).tkm = p.tkm ∧ (p.enterLine l st c cause).cc = p.cc ∧ (p.enterLine l st c cause).cs = p.cs ∧ (p.enterLine l st c cause).au = p.au := by
  simp [Plant.enterLine]

@[simp] theorem Plant.moveLine_frame (p : Plant) (l : Nat) (st : LineState) (cause : Option EndCause) :
    (p.moveLine l st cause).msc = p.msc ∧ (p.moveLine l st cause).sbc = p.sbc ∧ (p.moveLine l st cause).tkm = p.tkm ∧ (p.moveLine l st cause).cc = p.cc ∧ (p.moveLine l st cause).cs = p.cs ∧ (p.moveLine l st cause).au = p.au := by
  simp [Plant.moveLine]

@[simp] theorem Plant.setContent_frame (p : Plant) (l : Nat) (c : Content) :
    (p.setContent l c).msc = p.msc ∧ (p.setContent l c).sbc = p.sbc ∧ (p.setContent l c).tkm = p.tkm ∧ (p.setContent l c).pe = p.pe ∧ (p.setContent l c).cc = p.cc ∧ (p.setContent l c).cs = p.cs ∧ (p.setContent l c).au = p.au ∧ (p.setContent l c).raised = p.raised := by
  simp [Plant.setContent]

@[simp] theorem Plant.dropChange_frame (p : Plant) (l : Nat) :
    (p.dropChange l).msc = p.msc ∧ (p.dropChange l).sbc = p.sbc ∧ (p.dropChange l).tkm = p.tkm ∧ (p.dropChange l).pe = p.pe ∧ (p.dropChange l).cc = p.cc ∧ (p.dropChange l).cs = p.cs ∧ (p.dropChange l).au = p.au ∧ (p.dropChange l).raised = p.raised := by
  simp [Plant.dropChange]

@[simp] theorem Plant.setUnsupervised_frame (p : Plant) (l : Nat) (b : Bool) :
    (p.setUnsupervised l b).msc = p.msc ∧ (p.setUnsupervised l b).sbc = p.sbc ∧ (p.setUnsupervised l b).tkm = p.tkm ∧ (p.setUnsupervised l b).cc = p.cc ∧ (p.setUnsupervised l b).cs = p.cs ∧ (p.setUnsupervised l b).au = p.au := by
  simp [Plant.setUnsupervised]

@[simp] theorem Plant.startAttempt_frame (p : Plant) (l : Nat) (fromPos : Option Nat) :
    (p.startAttempt l fromPos).msc = p.msc ∧ (p.startAttempt l fromPos).sbc = p.sbc ∧ (p.startAttempt l fromPos).tkm = p.tkm ∧ (p.startAttempt l fromPos).pe = p.pe ∧ (p.startAttempt l fromPos).cc = p.cc ∧ (p.startAttempt l fromPos).cs = p.cs ∧ (p.startAttempt l fromPos).au = p.au := by
  unfold Plant.startAttempt; (repeat' split) <;> simp

@[simp] theorem Plant.nextKeg_frame (p : Plant) (l : Nat) (go : Bool) (fromPos : Option Nat) (cause : Option EndCause) :
    (p.nextKeg l go fromPos cause).msc = p.msc ∧ (p.nextKeg l go fromPos cause).sbc = p.sbc ∧ (p.nextKeg l go fromPos cause).tkm = p.tkm ∧ (p.nextKeg l go fromPos cause).cc = p.cc ∧ (p.nextKeg l go fromPos cause).cs = p.cs ∧ (p.nextKeg l go fromPos cause).au = p.au := by
  unfold Plant.nextKeg; (repeat' split) <;> simp [ite_msc, ite_sbc, ite_tkm, ite_cc, ite_cs, ite_au]

@[simp] theorem Plant.changeResult_frame (p : Plant) (l : Nat) (c : Changeover) (r : ChangeResult) :
    (p.changeResult l c r).msc = p.msc ∧ (p.changeResult l c r).sbc = p.sbc ∧ (p.changeResult l c r).lm = p.lm ∧ (p.changeResult l c r).tkm = p.tkm ∧ (p.changeResult l c r).pe = p.pe ∧ (p.changeResult l c r).cc = p.cc ∧ (p.changeResult l c r).cs = p.cs := by
  simp [Plant.changeResult]

@[simp] theorem Plant.kegEndServing_frame (p : Plant) (l : Nat) (x : Line) (cause : EndCause) :
    (p.kegEndServing l x cause).msc = p.msc ∧ (p.kegEndServing l x cause).sbc = p.sbc ∧ (p.kegEndServing l x cause).tkm = p.tkm ∧ (p.kegEndServing l x cause).cc = p.cc ∧ (p.kegEndServing l x cause).cs = p.cs := by
  unfold Plant.kegEndServing; (repeat' split) <;> simp

@[simp] theorem Plant.failAttempt_frame (p : Plant) (l : Nat) (c : Changeover) (r : ChangeResult) (cause : Option EndCause) :
    (p.failAttempt l c r cause).msc = p.msc ∧ (p.failAttempt l c r cause).sbc = p.sbc ∧ (p.failAttempt l c r cause).tkm = p.tkm ∧ (p.failAttempt l c r cause).cc = p.cc ∧ (p.failAttempt l c r cause).cs = p.cs := by
  simp [Plant.failAttempt]

@[simp] theorem Plant.kegEndOpen_frame (p : Plant) (l : Nat) (x : Line) (cause : EndCause) :
    (p.kegEndOpen l x cause).msc = p.msc ∧ (p.kegEndOpen l x cause).sbc = p.sbc ∧ (p.kegEndOpen l x cause).tkm = p.tkm ∧ (p.kegEndOpen l x cause).cc = p.cc ∧ (p.kegEndOpen l x cause).cs = p.cs := by
  unfold Plant.kegEndOpen; (repeat' split) <;> simp

@[simp] theorem Plant.primeAttempt_frame (p : Plant) (l : Nat) (c : Changeover) :
    (p.primeAttempt l c).msc = p.msc ∧ (p.primeAttempt l c).sbc = p.sbc ∧ (p.primeAttempt l c).tkm = p.tkm ∧ (p.primeAttempt l c).cc = p.cc ∧ (p.primeAttempt l c).cs = p.cs := by
  simp [Plant.primeAttempt]

@[simp] theorem Plant.interruptAttempt_frame (p : Plant) (l : Nat) (removal : Bool) :
    (p.interruptAttempt l removal).msc = p.msc ∧ (p.interruptAttempt l removal).sbc = p.sbc ∧ (p.interruptAttempt l removal).tkm = p.tkm ∧ (p.interruptAttempt l removal).cc = p.cc ∧ (p.interruptAttempt l removal).cs = p.cs := by
  unfold Plant.interruptAttempt; (repeat' split) <;> simp

@[simp] theorem Plant.lmStop_frame (p : Plant) :
    (p.lmStop).msc = p.msc ∧ (p.lmStop).sbc = p.sbc ∧ (p.lmStop).tkm = p.tkm ∧ (p.lmStop).cc = p.cc ∧ (p.lmStop).cs = p.cs := by
  unfold Plant.lmStop; (repeat' split) <;> simp [ite_msc, ite_sbc, ite_tkm, ite_cc, ite_cs]

@[simp] theorem Plant.takeForDraining_frame (p : Plant) (l : Nat) :
    (p.takeForDraining l).msc = p.msc ∧ (p.takeForDraining l).sbc = p.sbc ∧ (p.takeForDraining l).tkm = p.tkm ∧ (p.takeForDraining l).cc = p.cc ∧ (p.takeForDraining l).cs = p.cs ∧ (p.takeForDraining l).au = p.au := by
  unfold Plant.takeForDraining; (repeat' split) <;> simp

@[simp] theorem Plant.takeForCleaning_frame (p : Plant) (l : Nat) :
    (p.takeForCleaning l).msc = p.msc ∧ (p.takeForCleaning l).sbc = p.sbc ∧ (p.takeForCleaning l).tkm = p.tkm ∧ (p.takeForCleaning l).cc = p.cc ∧ (p.takeForCleaning l).cs = p.cs ∧ (p.takeForCleaning l).au = p.au := by
  unfold Plant.takeForCleaning; (repeat' split) <;> simp

@[simp] theorem Plant.clearJob_frame (p : Plant) (l : Nat) :
    (p.clearJob l).msc = p.msc ∧ (p.clearJob l).sbc = p.sbc ∧ (p.clearJob l).tkm = p.tkm ∧ (p.clearJob l).pe = p.pe ∧ (p.clearJob l).cc = p.cc ∧ (p.clearJob l).cs = p.cs ∧ (p.clearJob l).au = p.au ∧ (p.clearJob l).raised = p.raised := by
  simp [Plant.clearJob]

@[simp] theorem Plant.csSetContent_frame (p : Plant) (l : Nat) (c : Content) :
    (p.csSetContent l c).msc = p.msc ∧ (p.csSetContent l c).sbc = p.sbc ∧ (p.csSetContent l c).tkm = p.tkm ∧ (p.csSetContent l c).pe = p.pe ∧ (p.csSetContent l c).cc = p.cc ∧ (p.csSetContent l c).cs = p.cs ∧ (p.csSetContent l c).au = p.au ∧ (p.csSetContent l c).raised = p.raised := by
  unfold Plant.csSetContent; (repeat' split) <;> simp

@[simp] theorem Plant.selectHead_frame (p : Plant) (l : Nat) :
    (p.selectHead l).msc = p.msc ∧ (p.selectHead l).sbc = p.sbc ∧ (p.selectHead l).tkm = p.tkm ∧ (p.selectHead l).pe = p.pe ∧ (p.selectHead l).cc = p.cc ∧ (p.selectHead l).cs = p.cs ∧ (p.selectHead l).au = p.au := by
  unfold Plant.selectHead; (repeat' split) <;> simp

@[simp] theorem Plant.returnToService_frame (p : Plant) (l : Nat) :
    (p.returnToService l).msc = p.msc ∧ (p.returnToService l).sbc = p.sbc ∧ (p.returnToService l).tkm = p.tkm ∧ (p.returnToService l).cc = p.cc ∧ (p.returnToService l).cs = p.cs ∧ (p.returnToService l).au = p.au := by
  unfold Plant.returnToService; (repeat' split) <;> simp

@[simp] theorem Plant.lockLine_frame (p : Plant) (l : Nat) (c : Content) :
    (p.lockLine l c).msc = p.msc ∧ (p.lockLine l c).sbc = p.sbc ∧ (p.lockLine l c).tkm = p.tkm ∧ (p.lockLine l c).cc = p.cc ∧ (p.lockLine l c).cs = p.cs ∧ (p.lockLine l c).au = p.au := by
  unfold Plant.lockLine; (repeat' split) <;> simp

@[simp] theorem Plant.releaseLine_frame (p : Plant) (l : Nat) :
    (p.releaseLine l).msc = p.msc ∧ (p.releaseLine l).sbc = p.sbc ∧ (p.releaseLine l).tkm = p.tkm ∧ (p.releaseLine l).cc = p.cc ∧ (p.releaseLine l).cs = p.cs ∧ (p.releaseLine l).au = p.au := by
  unfold Plant.releaseLine; (repeat' split) <;> simp

end Sys2Proof.Machine
end

