-- ==== Sys2Proof/Laws/Cleaning.lean ====
section
/-!
SUPPORT. What the operations of CC and CS leave as it is, block by block.
-/

namespace Sys2Proof.Machine

/-! ### Cooling -/

@[simp] theorem Plant.modCc_frame (p : Plant) (f : Cc → Cc) :
    (p.modCc f).msc = p.msc ∧ (p.modCc f).sbc = p.sbc ∧ (p.modCc f).lm = p.lm ∧ (p.modCc f).tkm = p.tkm ∧ (p.modCc f).pe = p.pe ∧ (p.modCc f).cs = p.cs ∧ (p.modCc f).au = p.au ∧ (p.modCc f).raised = p.raised := by
  exact ⟨rfl, rfl, rfl, rfl, rfl, rfl, rfl, rfl⟩

@[simp] theorem Plant.setCooling_frame (p : Plant) (st : CoolingState) (cause : CoolingCause) :
    (p.setCooling st cause).msc = p.msc ∧ (p.setCooling st cause).sbc = p.sbc ∧ (p.setCooling st cause).lm = p.lm ∧ (p.setCooling st cause).tkm = p.tkm ∧ (p.setCooling st cause).pe = p.pe ∧ (p.setCooling st cause).cs = p.cs ∧ (p.setCooling st cause).au = p.au := by
  exact ⟨rfl, rfl, rfl, rfl, rfl, rfl, rfl⟩

@[simp] theorem Plant.degrade_frame (p : Plant) (why : DegradeCause) :
    (p.degrade why).msc = p.msc ∧ (p.degrade why).sbc = p.sbc ∧ (p.degrade why).lm = p.lm ∧ (p.degrade why).tkm = p.tkm ∧ (p.degrade why).pe = p.pe ∧ (p.degrade why).cs = p.cs ∧ (p.degrade why).au = p.au := by
  exact ⟨rfl, rfl, rfl, rfl, rfl, rfl, rfl⟩

@[simp] theorem Plant.enterRunning_frame (p : Plant) (cause : CoolingCause) :
    (p.enterRunning cause).msc = p.msc ∧ (p.enterRunning cause).sbc = p.sbc ∧ (p.enterRunning cause).lm = p.lm ∧ (p.enterRunning cause).tkm = p.tkm ∧ (p.enterRunning cause).pe = p.pe ∧ (p.enterRunning cause).cs = p.cs ∧ (p.enterRunning cause).au = p.au := by
  unfold Plant.enterRunning; (repeat' split) <;> simp

@[simp] theorem Plant.coolingLive_frame (p : Plant) :
    (p.coolingLive).msc = p.msc ∧ (p.coolingLive).sbc = p.sbc ∧ (p.coolingLive).lm = p.lm ∧ (p.coolingLive).tkm = p.tkm ∧ (p.coolingLive).pe = p.pe ∧ (p.coolingLive).cs = p.cs ∧ (p.coolingLive).au = p.au := by
  unfold Plant.coolingLive; (repeat' split) <;> simp

@[simp] theorem Plant.coolingLoss_frame (p : Plant) :
    (p.coolingLoss).msc = p.msc ∧ (p.coolingLoss).sbc = p.sbc ∧ (p.coolingLoss).lm = p.lm ∧ (p.coolingLoss).tkm = p.tkm ∧ (p.coolingLoss).pe = p.pe ∧ (p.coolingLoss).cs = p.cs ∧ (p.coolingLoss).au = p.au := by
  unfold Plant.coolingLoss; (repeat' split) <;> simp [ite_msc, ite_sbc, ite_lm, ite_tkm, ite_pe, ite_cs, ite_au]

@[simp] theorem Plant.tripStage_frame (p : Plant) (i : Nat) :
    (p.tripStage i).msc = p.msc ∧ (p.tripStage i).sbc = p.sbc ∧ (p.tripStage i).lm = p.lm ∧ (p.tripStage i).tkm = p.tkm ∧ (p.tripStage i).pe = p.pe ∧ (p.tripStage i).cs = p.cs ∧ (p.tripStage i).au = p.au := by
  unfold Plant.tripStage; (try dsimp only); (repeat' split) <;> (try dsimp only) <;> (repeat' split) <;> simp

@[simp] theorem Plant.judgeDegrade_frame (p : Plant) :
    (p.judgeDegrade).msc = p.msc ∧ (p.judgeDegrade).sbc = p.sbc ∧ (p.judgeDegrade).lm = p.lm ∧ (p.judgeDegrade).tkm = p.tkm ∧ (p.judgeDegrade).pe = p.pe ∧ (p.judgeDegrade).cs = p.cs ∧ (p.judgeDegrade).au = p.au := by
  unfold Plant.judgeDegrade; (repeat' split) <;> simp

@[simp] theorem Plant.peTrunkEvent_frame (p : Plant) (i : Nat) (st : TrunkState) :
    (p.peTrunkEvent i st).msc = p.msc ∧ (p.peTrunkEvent i st).sbc = p.sbc ∧ (p.peTrunkEvent i st).lm = p.lm ∧ (p.peTrunkEvent i st).tkm = p.tkm ∧ (p.peTrunkEvent i st).cc = p.cc ∧ (p.peTrunkEvent i st).cs = p.cs ∧ (p.peTrunkEvent i st).au = p.au := by
  simp [Plant.peTrunkEvent]

@[simp] theorem Plant.modTrunk_frame (p : Plant) (i : Nat) (f : Trunk → Trunk) :
    (p.modTrunk i f).msc = p.msc ∧ (p.modTrunk i f).sbc = p.sbc ∧ (p.modTrunk i f).lm = p.lm ∧ (p.modTrunk i f).tkm = p.tkm ∧ (p.modTrunk i f).pe = p.pe ∧ (p.modTrunk i f).cs = p.cs ∧ (p.modTrunk i f).au = p.au ∧ (p.modTrunk i f).raised = p.raised := by
  exact ⟨rfl, rfl, rfl, rfl, rfl, rfl, rfl, rfl⟩

@[simp] theorem Plant.setTrunkState_frame (p : Plant) (i : Nat) (st : TrunkState) (cause : TrunkCause) :
    (p.setTrunkState i st cause).msc = p.msc ∧ (p.setTrunkState i st cause).sbc = p.sbc ∧ (p.setTrunkState i st cause).lm = p.lm ∧ (p.setTrunkState i st cause).tkm = p.tkm ∧ (p.setTrunkState i st cause).au = p.au := by
  unfold Plant.setTrunkState; (repeat' split) <;> simp

@[simp] theorem Plant.takePump_frame (p : Plant) (i : Nat) (running : Bool) :
    (p.takePump i running).msc = p.msc ∧ (p.takePump i running).sbc = p.sbc ∧ (p.takePump i running).lm = p.lm ∧ (p.takePump i running).tkm = p.tkm ∧ (p.takePump i running).pe = p.pe ∧ (p.takePump i running).cs = p.cs ∧ (p.takePump i running).au = p.au ∧ (p.takePump i running).raised = p.raised := by
  exact ⟨rfl, rfl, rfl, rfl, rfl, rfl, rfl, rfl⟩

@[simp] theorem Plant.takeReturn_frame (p : Plant) (i : Nat) (t : Int) :
    (p.takeReturn i t).msc = p.msc ∧ (p.takeReturn i t).sbc = p.sbc ∧ (p.takeReturn i t).lm = p.lm ∧ (p.takeReturn i t).tkm = p.tkm ∧ (p.takeReturn i t).au = p.au := by
  unfold Plant.takeReturn; (repeat' split) <;> simp

@[simp] theorem Plant.takeTrunks_frame (p : Plant) (returns : Vector Int 8) (pumps : Vector Bool 8) :
    (p.takeTrunks returns pumps).msc = p.msc ∧ (p.takeTrunks returns pumps).sbc = p.sbc ∧ (p.takeTrunks returns pumps).lm = p.lm ∧ (p.takeTrunks returns pumps).tkm = p.tkm ∧ (p.takeTrunks returns pumps).au = p.au := by
  unfold Plant.takeTrunks; (repeat' split) <;> simp [ite_msc, ite_sbc, ite_lm, ite_tkm, ite_au]

@[simp] theorem Plant.coolingStatus_frame (p : Plant) (bath : Int) (running tripped : Vector Bool 3) (returns : Vector Int 8)     (pumps : Vector Bool 8) :
    (p.coolingStatus bath running tripped returns pumps).msc = p.msc ∧ (p.coolingStatus bath running tripped returns pumps).sbc = p.sbc ∧ (p.coolingStatus bath running tripped returns pumps).lm = p.lm ∧ (p.coolingStatus bath running tripped returns pumps).tkm = p.tkm ∧ (p.coolingStatus bath running tripped returns pumps).au = p.au := by
  unfold Plant.coolingStatus; (repeat' split) <;> simp [ite_msc, ite_sbc, ite_lm, ite_tkm, ite_au]

@[simp] theorem Plant.coolingJoin_frame (p : Plant) :
    (p.coolingJoin).msc = p.msc ∧ (p.coolingJoin).sbc = p.sbc ∧ (p.coolingJoin).lm = p.lm ∧ (p.coolingJoin).tkm = p.tkm ∧ (p.coolingJoin).pe = p.pe ∧ (p.coolingJoin).cs = p.cs ∧ (p.coolingJoin).au = p.au := by
  unfold Plant.coolingJoin; (repeat' split) <;> simp [ite_msc, ite_sbc, ite_lm, ite_tkm, ite_pe, ite_cs, ite_au]

@[simp] theorem Plant.graceOut_frame (p : Plant) :
    (p.graceOut).msc = p.msc ∧ (p.graceOut).sbc = p.sbc ∧ (p.graceOut).lm = p.lm ∧ (p.graceOut).tkm = p.tkm ∧ (p.graceOut).au = p.au := by
  unfold Plant.graceOut; (repeat' split) <;> simp [ite_msc, ite_sbc, ite_lm, ite_tkm, ite_au]

@[simp] theorem Plant.pumpOut_frame (p : Plant) (i : Nat) :
    (p.pumpOut i).msc = p.msc ∧ (p.pumpOut i).sbc = p.sbc ∧ (p.pumpOut i).lm = p.lm ∧ (p.pumpOut i).tkm = p.tkm ∧ (p.pumpOut i).pe = p.pe ∧ (p.pumpOut i).cs = p.cs ∧ (p.pumpOut i).au = p.au := by
  exact ⟨rfl, rfl, rfl, rfl, rfl, rfl, rfl⟩

@[simp] theorem Plant.degradeOut_frame (p : Plant) :
    (p.degradeOut).msc = p.msc ∧ (p.degradeOut).sbc = p.sbc ∧ (p.degradeOut).lm = p.lm ∧ (p.degradeOut).tkm = p.tkm ∧ (p.degradeOut).pe = p.pe ∧ (p.degradeOut).cs = p.cs ∧ (p.degradeOut).au = p.au := by
  unfold Plant.degradeOut; (repeat' split) <;> simp [ite_msc, ite_sbc, ite_lm, ite_tkm, ite_pe, ite_cs, ite_au]

/-! ### Cleaning -/

@[simp] theorem Plant.peTake_frame (p : Plant) (l : Nat) :
    (p.peTake l).msc = p.msc ∧ (p.peTake l).sbc = p.sbc ∧ (p.peTake l).lm = p.lm ∧ (p.peTake l).tkm = p.tkm ∧ (p.peTake l).cc = p.cc ∧ (p.peTake l).cs = p.cs ∧ (p.peTake l).au = p.au := by
  unfold Plant.peTake; (repeat' split) <;> simp [ite_msc, ite_sbc, ite_lm, ite_tkm, ite_cc, ite_cs, ite_au]

@[simp] theorem Plant.peRelease_frame (p : Plant) (l : Nat) :
    (p.peRelease l).msc = p.msc ∧ (p.peRelease l).sbc = p.sbc ∧ (p.peRelease l).lm = p.lm ∧ (p.peRelease l).tkm = p.tkm ∧ (p.peRelease l).cc = p.cc ∧ (p.peRelease l).cs = p.cs ∧ (p.peRelease l).au = p.au := by
  simp [Plant.peRelease]

@[simp] theorem Plant.pePreempt_frame (p : Plant) (l : Nat) :
    (p.pePreempt l).msc = p.msc ∧ (p.pePreempt l).sbc = p.sbc ∧ (p.pePreempt l).lm = p.lm ∧ (p.pePreempt l).tkm = p.tkm ∧ (p.pePreempt l).cc = p.cc ∧ (p.pePreempt l).cs = p.cs ∧ (p.pePreempt l).au = p.au := by
  simp [Plant.pePreempt]

@[simp] theorem Plant.setFlows_frame (p : Plant) (lines : List Nat) (on : Bool) :
    (p.setFlows lines on).msc = p.msc ∧ (p.setFlows lines on).sbc = p.sbc ∧ (p.setFlows lines on).lm = p.lm ∧ (p.setFlows lines on).tkm = p.tkm ∧ (p.setFlows lines on).cc = p.cc ∧ (p.setFlows lines on).cs = p.cs ∧ (p.setFlows lines on).au = p.au := by
  simp [Plant.setFlows]

@[simp] theorem Plant.modCircuit_frame (p : Plant) (c : Nat) (f : Circuit → Circuit) :
    (p.modCircuit c f).msc = p.msc ∧ (p.modCircuit c f).sbc = p.sbc ∧ (p.modCircuit c f).lm = p.lm ∧ (p.modCircuit c f).tkm = p.tkm ∧ (p.modCircuit c f).pe = p.pe ∧ (p.modCircuit c f).cc = p.cc ∧ (p.modCircuit c f).au = p.au ∧ (p.modCircuit c f).raised = p.raised := by
  exact ⟨rfl, rfl, rfl, rfl, rfl, rfl, rfl, rfl⟩

@[simp] theorem Plant.writeOut_frame (p : Plant) (c : Nat) (pump : Bool) (m : MediumOut) (drain : Bool) :
    (p.writeOut c pump m drain).msc = p.msc ∧ (p.writeOut c pump m drain).sbc = p.sbc ∧ (p.writeOut c pump m drain).lm = p.lm ∧ (p.writeOut c pump m drain).tkm = p.tkm ∧ (p.writeOut c pump m drain).pe = p.pe ∧ (p.writeOut c pump m drain).cc = p.cc ∧ (p.writeOut c pump m drain).au = p.au ∧ (p.writeOut c pump m drain).raised = p.raised := by
  exact ⟨rfl, rfl, rfl, rfl, rfl, rfl, rfl, rfl⟩

@[simp] theorem Plant.writeThreshold_frame (p : Plant) (c threshold : Nat) :
    (p.writeThreshold c threshold).msc = p.msc ∧ (p.writeThreshold c threshold).sbc = p.sbc ∧ (p.writeThreshold c threshold).lm = p.lm ∧ (p.writeThreshold c threshold).tkm = p.tkm ∧ (p.writeThreshold c threshold).pe = p.pe ∧ (p.writeThreshold c threshold).cc = p.cc ∧ (p.writeThreshold c threshold).au = p.au ∧ (p.writeThreshold c threshold).raised = p.raised := by
  exact ⟨rfl, rfl, rfl, rfl, rfl, rfl, rfl, rfl⟩

@[simp] theorem Plant.connect_frame (p : Plant) (c trunk id : Nat) :
    (p.connect c trunk id).msc = p.msc ∧ (p.connect c trunk id).sbc = p.sbc ∧ (p.connect c trunk id).lm = p.lm ∧ (p.connect c trunk id).tkm = p.tkm ∧ (p.connect c trunk id).pe = p.pe ∧ (p.connect c trunk id).au = p.au ∧ (p.connect c trunk id).raised = p.raised := by
  exact ⟨rfl, rfl, rfl, rfl, rfl, rfl, rfl⟩

@[simp] theorem Plant.disconnect_frame (p : Plant) (c : Nat) (fault : Option FaultCause) :
    (p.disconnect c fault).msc = p.msc ∧ (p.disconnect c fault).sbc = p.sbc ∧ (p.disconnect c fault).lm = p.lm ∧ (p.disconnect c fault).tkm = p.tkm ∧ (p.disconnect c fault).pe = p.pe ∧ (p.disconnect c fault).au = p.au ∧ (p.disconnect c fault).raised = p.raised := by
  unfold Plant.disconnect; (repeat' split) <;> simp

@[simp] theorem Plant.setJobState_frame (p : Plant) (id : Nat) (st : JobState) (second : Nat) :
    (p.setJobState id st second).msc = p.msc ∧ (p.setJobState id st second).sbc = p.sbc ∧ (p.setJobState id st second).lm = p.lm ∧ (p.setJobState id st second).tkm = p.tkm ∧ (p.setJobState id st second).pe = p.pe ∧ (p.setJobState id st second).cc = p.cc ∧ (p.setJobState id st second).au = p.au := by
  exact ⟨rfl, rfl, rfl, rfl, rfl, rfl, rfl⟩

@[simp] theorem Plant.dropLine_frame (p : Plant) (id l : Nat) :
    (p.dropLine id l).msc = p.msc ∧ (p.dropLine id l).sbc = p.sbc ∧ (p.dropLine id l).lm = p.lm ∧ (p.dropLine id l).tkm = p.tkm ∧ (p.dropLine id l).pe = p.pe ∧ (p.dropLine id l).cc = p.cc ∧ (p.dropLine id l).au = p.au ∧ (p.dropLine id l).raised = p.raised := by
  exact ⟨rfl, rfl, rfl, rfl, rfl, rfl, rfl, rfl⟩

@[simp] theorem Plant.finishJob_frame (p : Plant) (j : Job) (st : JobState) (cause : Option AbortCause) (f : FlushResult) :
    (p.finishJob j st cause f).msc = p.msc ∧ (p.finishJob j st cause f).sbc = p.sbc ∧ (p.finishJob j st cause f).tkm = p.tkm ∧ (p.finishJob j st cause f).pe = p.pe ∧ (p.finishJob j st cause f).cc = p.cc := by
  simp [Plant.finishJob]

@[simp] theorem Plant.completeJob_frame (p : Plant) (id : Nat) :
    (p.completeJob id).msc = p.msc ∧ (p.completeJob id).sbc = p.sbc ∧ (p.completeJob id).tkm = p.tkm ∧ (p.completeJob id).pe = p.pe := by
  unfold Plant.completeJob; (repeat' split) <;> simp

@[simp] theorem Plant.lockAll_frame (p : Plant) (j : Job) :
    (p.lockAll j).msc = p.msc ∧ (p.lockAll j).sbc = p.sbc ∧ (p.lockAll j).tkm = p.tkm ∧ (p.lockAll j).cc = p.cc ∧ (p.lockAll j).cs = p.cs ∧ (p.lockAll j).au = p.au := by
  simp [Plant.lockAll]

@[simp] theorem Plant.flushFail_frame (p : Plant) (id : Nat) (why : FaultCause) :
    (p.flushFail id why).msc = p.msc ∧ (p.flushFail id why).sbc = p.sbc ∧ (p.flushFail id why).tkm = p.tkm := by
  unfold Plant.flushFail; (repeat' split) <;> simp

@[simp] theorem Plant.flushEnd_frame (p : Plant) (id : Nat) :
    (p.flushEnd id).msc = p.msc ∧ (p.flushEnd id).sbc = p.sbc ∧ (p.flushEnd id).tkm = p.tkm := by
  unfold Plant.flushEnd; (repeat' split) <;> simp

@[simp] theorem Plant.flushStart_frame (p : Plant) (id : Nat) :
    (p.flushStart id).msc = p.msc ∧ (p.flushStart id).sbc = p.sbc ∧ (p.flushStart id).tkm = p.tkm := by
  unfold Plant.flushStart; (repeat' split) <;> simp

@[simp] theorem Plant.purge_frame (p : Plant) (j : Job) (l : Nat) (head : Option Nat) :
    (p.purge j l head).msc = p.msc ∧ (p.purge j l head).sbc = p.sbc ∧ (p.purge j l head).tkm = p.tkm ∧ (p.purge j l head).pe = p.pe ∧ (p.purge j l head).cc = p.cc ∧ (p.purge j l head).cs = p.cs := by
  unfold Plant.purge; (repeat' split) <;> simp

@[simp] theorem Plant.settleLine_frame (p : Plant) (proof : Bool) (l : Nat) :
    (p.settleLine proof l).msc = p.msc ∧ (p.settleLine proof l).sbc = p.sbc ∧ (p.settleLine proof l).tkm = p.tkm ∧ (p.settleLine proof l).cc = p.cc ∧ (p.settleLine proof l).cs = p.cs ∧ (p.settleLine proof l).au = p.au := by
  unfold Plant.settleLine; (repeat' split) <;> simp

@[simp] theorem Plant.abortJob_frame (p : Plant) (id : Nat) (cause : AbortCause) :
    (p.abortJob id cause).msc = p.msc ∧ (p.abortJob id cause).sbc = p.sbc ∧ (p.abortJob id cause).tkm = p.tkm := by
  unfold Plant.abortJob; (repeat' split) <;> simp

@[simp] theorem Plant.endJob_frame (p : Plant) (id : Nat) (cause : AbortCause) (why : FaultCause) :
    (p.endJob id cause why).msc = p.msc ∧ (p.endJob id cause why).sbc = p.sbc ∧ (p.endJob id cause why).tkm = p.tkm := by
  unfold Plant.endJob; (repeat' split) <;> simp

@[simp] theorem Plant.beginReturn_frame (p : Plant) (j : Job) (l : Nat) :
    (p.beginReturn j l).msc = p.msc ∧ (p.beginReturn j l).sbc = p.sbc ∧ (p.beginReturn j l).lm = p.lm ∧ (p.beginReturn j l).tkm = p.tkm ∧ (p.beginReturn j l).cc = p.cc ∧ (p.beginReturn j l).au = p.au := by
  unfold Plant.beginReturn; (repeat' split) <;> simp

@[simp] theorem Plant.returnFrom_frame (id : Nat) (l : List Nat) (p : Plant) :
    (Plant.returnFrom id l p).msc = p.msc ∧ (Plant.returnFrom id l p).sbc = p.sbc ∧ (Plant.returnFrom id l p).tkm = p.tkm := by
  induction l generalizing p with
  | nil => simp [Plant.returnFrom]
  | cons a l ih =>
    unfold Plant.returnFrom
    (repeat' split)
    · simp
    all_goals (dsimp only; (repeat' split))
    all_goals simp [ih]

@[simp] theorem Plant.nextReturn_frame (p : Plant) (id : Nat) :
    (p.nextReturn id).msc = p.msc ∧ (p.nextReturn id).sbc = p.sbc ∧ (p.nextReturn id).tkm = p.tkm := by
  unfold Plant.nextReturn; (repeat' split) <;> simp

@[simp] theorem Plant.enterReturn_frame (p : Plant) (id : Nat) :
    (p.enterReturn id).msc = p.msc ∧ (p.enterReturn id).sbc = p.sbc ∧ (p.enterReturn id).tkm = p.tkm := by
  simp [Plant.enterReturn]

@[simp] theorem Plant.endReturn_frame (p : Plant) (id l : Nat) :
    (p.endReturn id l).msc = p.msc ∧ (p.endReturn id l).sbc = p.sbc ∧ (p.endReturn id l).tkm = p.tkm := by
  unfold Plant.endReturn; (try dsimp only); (repeat' split) <;> (try dsimp only) <;> (repeat' split) <;> simp

@[simp] theorem Plant.lineReturned_frame (p : Plant) (j : Job) (l : Nat) :
    (p.lineReturned j l).msc = p.msc ∧ (p.lineReturned j l).sbc = p.sbc ∧ (p.lineReturned j l).tkm = p.tkm := by
  simp [Plant.lineReturned]

@[simp] theorem Plant.lineLocked_frame (p : Plant) (j : Job) (l : Nat) (head : Option Nat) :
    (p.lineLocked j l head).msc = p.msc ∧ (p.lineLocked j l head).sbc = p.sbc ∧ (p.lineLocked j l head).tkm = p.tkm := by
  simp [Plant.lineLocked]

@[simp] theorem Plant.headChanged_frame (p : Plant) (l old : Nat) :
    (p.headChanged l old).msc = p.msc ∧ (p.headChanged l old).sbc = p.sbc ∧ (p.headChanged l old).tkm = p.tkm := by
  unfold Plant.headChanged; (repeat' split) <;> simp

@[simp] theorem Plant.stepContent_frame (p : Plant) (lines : List Nat) (m : Option Medium) :
    (p.stepContent lines m).msc = p.msc ∧ (p.stepContent lines m).sbc = p.sbc ∧ (p.stepContent lines m).tkm = p.tkm ∧ (p.stepContent lines m).pe = p.pe ∧ (p.stepContent lines m).cc = p.cc ∧ (p.stepContent lines m).cs = p.cs ∧ (p.stepContent lines m).au = p.au ∧ (p.stepContent lines m).raised = p.raised := by
  rcases m with _ | m
  · simp [Plant.stepContent]
  · cases m
    · unfold Plant.stepContent
      refine ⟨?_, ?_, ?_, ?_, ?_, ?_, ?_, ?_⟩ <;> (apply foldl_keeps; intro q a; (repeat' split) <;> simp)
    all_goals simp [Plant.stepContent]

@[simp] theorem Plant.stepOutputs_frame (p : Plant) (j : Job) (s : Step) (on : Bool) :
    (p.stepOutputs j s on).msc = p.msc ∧ (p.stepOutputs j s on).sbc = p.sbc ∧ (p.stepOutputs j s on).lm = p.lm ∧ (p.stepOutputs j s on).tkm = p.tkm ∧ (p.stepOutputs j s on).cc = p.cc ∧ (p.stepOutputs j s on).au = p.au := by
  unfold Plant.stepOutputs; (repeat' split) <;> simp

@[simp] theorem Plant.startStep_frame (p : Plant) (id k : Nat) :
    (p.startStep id k).msc = p.msc ∧ (p.startStep id k).sbc = p.sbc ∧ (p.startStep id k).tkm = p.tkm := by
  unfold Plant.startStep; (repeat' split) <;> simp

@[simp] theorem Plant.advance_frame (p : Plant) (id : Nat) :
    (p.advance id).msc = p.msc ∧ (p.advance id).sbc = p.sbc ∧ (p.advance id).tkm = p.tkm := by
  unfold Plant.advance; (repeat' split) <;> simp

@[simp] theorem Plant.provePassed_frame (p : Plant) (j : Job) (m : Medium) :
    (p.provePassed j m).msc = p.msc ∧ (p.provePassed j m).sbc = p.sbc ∧ (p.provePassed j m).tkm = p.tkm := by
  unfold Plant.provePassed; (repeat' split) <;> simp

@[simp] theorem Plant.proveFailed_frame (p : Plant) (j : Job) (onFail : Option Nat) :
    (p.proveFailed j onFail).msc = p.msc ∧ (p.proveFailed j onFail).sbc = p.sbc ∧ (p.proveFailed j onFail).tkm = p.tkm := by
  unfold Plant.proveFailed; (repeat' split) <;> simp

@[simp] theorem Plant.judgeStep_frame (p : Plant) (j : Job) :
    (p.judgeStep j).msc = p.msc ∧ (p.judgeStep j).sbc = p.sbc ∧ (p.judgeStep j).tkm = p.tkm := by
  unfold Plant.judgeStep; (repeat' split) <;> simp [ite_msc, ite_sbc, ite_tkm]

@[simp] theorem Plant.judgeReturn_frame (p : Plant) (j : Job) :
    (p.judgeReturn j).msc = p.msc ∧ (p.judgeReturn j).sbc = p.sbc ∧ (p.judgeReturn j).tkm = p.tkm := by
  unfold Plant.judgeReturn; (repeat' split) <;> simp [ite_msc, ite_sbc, ite_tkm]

@[simp] theorem Plant.judgeFlush_frame (p : Plant) (j : Job) :
    (p.judgeFlush j).msc = p.msc ∧ (p.judgeFlush j).sbc = p.sbc ∧ (p.judgeFlush j).tkm = p.tkm := by
  unfold Plant.judgeFlush; (repeat' split) <;> simp

@[simp] theorem Plant.judgeCircuit_frame (p : Plant) (c : Nat) :
    (p.judgeCircuit c).msc = p.msc ∧ (p.judgeCircuit c).sbc = p.sbc ∧ (p.judgeCircuit c).tkm = p.tkm := by
  unfold Plant.judgeCircuit; (repeat' split) <;> simp

@[simp] theorem Plant.cleaningStatus_frame (p : Plant) (tankLow : Vector Bool 3) (inputs : Vector CircuitInput 2) (initial : Bool) :
    (p.cleaningStatus tankLow inputs initial).msc = p.msc ∧ (p.cleaningStatus tankLow inputs initial).sbc = p.sbc ∧ (p.cleaningStatus tankLow inputs initial).tkm = p.tkm := by
  unfold Plant.cleaningStatus; (repeat' split) <;> simp

@[simp] theorem Plant.pauseJob_frame (p : Plant) (j : Job) (tap : Nat) :
    (p.pauseJob j tap).msc = p.msc ∧ (p.pauseJob j tap).sbc = p.sbc ∧ (p.pauseJob j tap).lm = p.lm ∧ (p.pauseJob j tap).tkm = p.tkm ∧ (p.pauseJob j tap).cc = p.cc ∧ (p.pauseJob j tap).au = p.au := by
  unfold Plant.pauseJob; (repeat' split) <;> simp

@[simp] theorem Plant.resumeJob_frame (p : Plant) (j : Job) :
    (p.resumeJob j).msc = p.msc ∧ (p.resumeJob j).sbc = p.sbc ∧ (p.resumeJob j).tkm = p.tkm := by
  unfold Plant.resumeJob; (repeat' split) <;> simp [ite_msc, ite_sbc, ite_tkm]

@[simp] theorem Plant.capAbsent_frame (p : Plant) (tap : Nat) :
    (p.capAbsent tap).msc = p.msc ∧ (p.capAbsent tap).sbc = p.sbc ∧ (p.capAbsent tap).tkm = p.tkm := by
  unfold Plant.capAbsent; refine ⟨?_, ?_, ?_⟩ <;> (apply foldl_keeps; intro q a; (try dsimp only); (repeat' split) <;> simp)

@[simp] theorem Plant.enterCapCheck_frame (p : Plant) (j : Job) :
    (p.enterCapCheck j).msc = p.msc ∧ (p.enterCapCheck j).sbc = p.sbc ∧ (p.enterCapCheck j).lm = p.lm ∧ (p.enterCapCheck j).tkm = p.tkm ∧ (p.enterCapCheck j).cc = p.cc ∧ (p.enterCapCheck j).au = p.au := by
  simp [Plant.enterCapCheck]

@[simp] theorem Plant.leaveCapCheck_frame (p : Plant) (j : Job) :
    (p.leaveCapCheck j).msc = p.msc ∧ (p.leaveCapCheck j).sbc = p.sbc ∧ (p.leaveCapCheck j).tkm = p.tkm := by
  unfold Plant.leaveCapCheck; (repeat' split) <;> simp

@[simp] theorem Plant.grant_frame (p : Plant) (j : Job) (c : Nat) :
    (p.grant j c).msc = p.msc ∧ (p.grant j c).sbc = p.sbc ∧ (p.grant j c).tkm = p.tkm ∧ (p.grant j c).au = p.au := by
  simp [Plant.grant]

theorem Plant.csNext_frame (p q : Plant) (h : p.csNext = some q) : q.msc = p.msc ∧ q.sbc = p.sbc ∧ q.tkm = p.tkm := by
  unfold Plant.csNext at h
  (repeat' split at h) <;> simp only [Option.some.injEq, reduceCtorEq] at h <;> subst h <;> simp

@[simp] theorem Plant.csLoop_frame (n : Nat) (p : Plant) :
    (Plant.csLoop n p).msc = p.msc ∧ (Plant.csLoop n p).sbc = p.sbc ∧ (Plant.csLoop n p).tkm = p.tkm := by
  induction n generalizing p with
  | zero => simp [Plant.csLoop]
  | succ n ih =>
    unfold Plant.csLoop
    split
    · simp
    · next q h => simp [ih, Plant.csNext_frame p q h]

@[simp] theorem Plant.csSettle_frame (p : Plant) :
    p.csSettle.msc = p.msc ∧ p.csSettle.sbc = p.sbc ∧ p.csSettle.tkm = p.tkm := by
  unfold Plant.csSettle; split <;> simp

@[simp] theorem Plant.csLoss_frame (p : Plant) (a : Nat) :
    (p.csLoss a).msc = p.msc ∧ (p.csLoss a).sbc = p.sbc ∧ (p.csLoss a).tkm = p.tkm := by
  unfold Plant.csLoss; (repeat' split) <;> simp [ite_msc, ite_sbc, ite_tkm]

@[simp] theorem Plant.csStop_frame (p : Plant) :
    (p.csStop).msc = p.msc ∧ (p.csStop).sbc = p.sbc ∧ (p.csStop).tkm = p.tkm := by
  simp [Plant.csStop]

end Sys2Proof.Machine
end

