-- ==== Sys2Proof/Laws/Pours.lean ====
section
/-!
SUPPORT. What the operations on pours and on the inputs of cellar stations leave as it is, block by block, what an addition to the
product totals and a disconnected circuit do, and that the tables the statements spell are those the machine takes.
-/

namespace Sys2Proof.Machine

/-! ### The tables as the statements spell them, and as the machine takes them -/

/-- The head that Table 1-6 asks for is the ON_LINE head. -/
theorem Plant.filter_head_eq_onLineHead (p : Plant) (x : Line) :
    (x.chain.head?.filter fun i => (p.source i).state = .onLine) = p.onLineHead x := by
  unfold Plant.onLineHead; cases x.chain <;> simp [Option.filter]

/-- Table 1-6 as the statements spell it is what LM writes (R10). -/
theorem Plant.outletFor_eq_outletOf (p : Plant) (x : Line) : p.outletFor x = p.outletOf x := by
  have h (o : Option Nat) : (o.bind fun n => (p.source n).bound.map (·.2)) = o.bind p.couplerOf := rfl
  simp only [Plant.outletFor, Plant.outletOf, Plant.filter_head_eq_onLineHead, h]
  cases x.state <;> simp only []
  cases p.onLineHead x <;> simp

/-- A line's outlet outputs, written afresh, are those of Table 1-6 (R10). -/
theorem Plant.line_refreshOutlet (p : Plant) (l : Nat) :
    (p.refreshOutlet l).line l = (p.line l).map fun x => { x with outlet := p.outletOf x } := by
  rw [Plant.refreshOutlet, Plant.line_modLine, if_pos rfl]; simp only [Plant.outletFor_eq_outletOf]

/-- The tap's station is ACTIVE to PE when an ACTIVE station of type TAP stands at its address. -/
theorem Plant.tapOnline_iff (p : Plant) (t : Tap) :
    p.tapOnline t = t.station.any fun b => decide ((p.station b.1).kind = some .tap ∧ (p.station b.1).state = .active) := by
  unfold Plant.tapOnline Plant.isType Plant.active
  cases t.station with
  | none => rfl
  | some b =>
    rw [Bool.eq_iff_iff]
    cases h : (p.station b.1).kind <;> simp [h]

/-- Table 3-2 as the statements spell it is what PE takes (R42). -/
theorem Plant.tapStateFor_eq_tapRow (p : Plant) (t : Tap) : p.tapStateFor t = p.tapRow t := by
  rw [Plant.tapStateFor, Plant.tapRow, ← Plant.tapOnline_iff]
  cases t.line <;> cases t.pour <;> simp [Holds.none]

/-- A circuit that is disconnected leaves its trunk connected to none, and nothing else of CC changes (R131, R148). -/
theorem Plant.disconnect_trunkFreed (p : Plant) (j : Job) (c : Nat) (fault : Option FaultCause) (h : j.circuit = some c) :
    p.TrunkFreed j (p.disconnect c fault) := by
  unfold Plant.TrunkFreed Plant.disconnect
  refine ⟨fun t => ?_, ?_⟩
  · cases ht : (p.circuit c).out.trunk with
    | none => simp [h, ht, Plant.modCircuit, Plant.setCircuit, Plant.trunk]
    | some u =>
      have : ∀ (q : Plant) (f : Circuit → Circuit), (q.modCircuit c f).trunk t = q.trunk t := fun _ _ => rfl
      simp only [this, Plant.modTrunk, Plant.trunk_setTrunk, h, ht, Option.any_some, Option.some.injEq, decide_eq_true_eq]
      by_cases hu : u = t
      · subst hu
        by_cases h8 : u < 8
        · simp [h8]
        · simp [h8, Plant.trunk, Trunk.fresh]
      · simp [hu]
  · cases (p.circuit c).out.trunk <;> rfl

/-! ### Totals (R165, R166) -/

/-- What is added to one part of a product's totals, written out. -/
theorem Totals.add_eq_grown (t : Totals) (cap : Nat) (c : Category) (ml pours : Nat) : t.add cap c ml pours = t.grown cap c ml pours := by
  cases c <;> rfl

/-- The product totals after a write: the record of the index, where the table has it. -/
theorem Plant.totals_setTotals (p : Plant) (i n : Nat) (t : Totals × Totals) (h : n < 32) :
    (p.setTotals i t).totals n = if i = n then t else p.totals n := by
  simp only [Plant.totals, Plant.setTotals, Vector.getElem?_setIfInBounds]
  split <;> simp_all

/-- An addition to a product's totals is one entry of Table 8-3 for that product, and touches no other (R166). -/
theorem Plant.addProduct_grown (p : Plant) (i : Option Nat) (c : Category) (ml pours : Nat) :
    p.TotalsGrown i c ml pours none (p.addProduct i c ml pours) := by
  intro n h
  cases i with
  | none => simp [Plant.addProduct]
  | some i => simp [Plant.addProduct, Plant.totals_setTotals _ _ _ _ h, Totals.add_eq_grown, Config.max32, Config.max48]; split <;> simp_all

/-- A SHORT close counts once for its product, in both parts (R166). -/
theorem Plant.addShort_shortened (p : Plant) (i n : Nat) (h : n < 32) :
    (p.addShort i).totals n = if i = n then ((p.totals n).1.shortened, (p.totals n).2.shortened) else p.totals n := by
  rw [Plant.addShort, Plant.totals_setTotals _ _ _ _ h]; split
  · subst_vars; rfl
  · rfl
/-! ### Pours -/

@[simp] theorem Plant.startPour_frame (p : Plant) (i : Nat) (kind : PourKind) (targetMl ticket : Option Nat) :
    (p.startPour i kind targetMl ticket).msc = p.msc ∧ (p.startPour i kind targetMl ticket).sbc = p.sbc ∧ (p.startPour i kind targetMl ticket).tkm = p.tkm ∧ (p.startPour i kind targetMl ticket).cc = p.cc ∧ (p.startPour i kind targetMl ticket).cs = p.cs ∧ (p.startPour i kind targetMl ticket).au = p.au := by
  unfold Plant.startPour; (try dsimp only); (repeat' split) <;> (try dsimp only) <;> (repeat' split) <;> simp

@[simp] theorem Plant.tryPour_frame (p : Plant) (i : Nat) (kind : PourKind) (targetMl ticket : Option Nat) :
    (p.tryPour i kind targetMl ticket).msc = p.msc ∧ (p.tryPour i kind targetMl ticket).sbc = p.sbc ∧ (p.tryPour i kind targetMl ticket).cc = p.cc ∧ (p.tryPour i kind targetMl ticket).cs = p.cs := by
  unfold Plant.tryPour; (repeat' split) <;> simp

@[simp] theorem Plant.claimPress_frame (p : Plant) (i : Nat) :
    (p.claimPress i).msc = p.msc ∧ (p.claimPress i).sbc = p.sbc ∧ (p.claimPress i).cc = p.cc ∧ (p.claimPress i).cs = p.cs := by
  unfold Plant.claimPress; (try dsimp only); (repeat' split) <;> (try dsimp only) <;> (repeat' split) <;> simp

@[simp] theorem Plant.takePress_frame (p : Plant) (i : Nat) :
    (p.takePress i).msc = p.msc ∧ (p.takePress i).sbc = p.sbc ∧ (p.takePress i).cc = p.cc ∧ (p.takePress i).cs = p.cs := by
  unfold Plant.takePress; (try dsimp only); (repeat' split) <;> (try dsimp only) <;> (repeat' split) <;> simp

@[simp] theorem Plant.takeRelease_frame (p : Plant) (i : Nat) :
    (p.takeRelease i).msc = p.msc ∧ (p.takeRelease i).sbc = p.sbc ∧ (p.takeRelease i).lm = p.lm ∧ (p.takeRelease i).tkm = p.tkm ∧ (p.takeRelease i).cc = p.cc ∧ (p.takeRelease i).cs = p.cs := by
  unfold Plant.takeRelease; (repeat' split) <;> simp

@[simp] theorem Plant.calibrationStep_frame (p : Plant) (i : Nat) (u : Pour) (pulses ml : Nat) :
    (p.calibrationStep i u pulses ml).msc = p.msc ∧ (p.calibrationStep i u pulses ml).sbc = p.sbc ∧ (p.calibrationStep i u pulses ml).lm = p.lm ∧ (p.calibrationStep i u pulses ml).tkm = p.tkm ∧ (p.calibrationStep i u pulses ml).cc = p.cc ∧ (p.calibrationStep i u pulses ml).cs = p.cs := by
  unfold Plant.calibrationStep; (repeat' split) <;> simp

@[simp] theorem Plant.pourResult_frame (p : Plant) (u : Pour) (ml : Nat) :
    (p.pourResult u ml).1.msc = p.msc ∧ (p.pourResult u ml).1.sbc = p.sbc ∧ (p.pourResult u ml).1.lm = p.lm ∧ (p.pourResult u ml).1.cc = p.cc ∧ (p.pourResult u ml).1.cs = p.cs := by
  unfold Plant.pourResult; (repeat' split) <;> simp

@[simp] theorem Plant.completePour_frame (p : Plant) (i : Nat) (incomplete : Bool) :
    (p.completePour i incomplete).msc = p.msc ∧ (p.completePour i incomplete).sbc = p.sbc ∧ (p.completePour i incomplete).cs = p.cs := by
  unfold Plant.completePour; (repeat' split) <;> simp

@[simp] theorem Plant.takeCount_frame (p : Plant) (i : Nat) (c : Count24) (initial : Bool) :
    (p.takeCount i c initial).msc = p.msc ∧ (p.takeCount i c initial).sbc = p.sbc ∧ (p.takeCount i c initial).lm = p.lm ∧ (p.takeCount i c initial).tkm = p.tkm ∧ (p.takeCount i c initial).cc = p.cc ∧ (p.takeCount i c initial).cs = p.cs ∧ (p.takeCount i c initial).au = p.au ∧ (p.takeCount i c initial).raised = p.raised := by
  exact ⟨rfl, rfl, rfl, rfl, rfl, rfl, rfl, rfl⟩

@[simp] theorem Plant.takeHoldExpired_frame (p : Plant) (taps : List Nat) :
    (p.takeHoldExpired taps).msc = p.msc ∧ (p.takeHoldExpired taps).sbc = p.sbc ∧ (p.takeHoldExpired taps).lm = p.lm ∧ (p.takeHoldExpired taps).tkm = p.tkm ∧ (p.takeHoldExpired taps).cc = p.cc ∧ (p.takeHoldExpired taps).cs = p.cs ∧ (p.takeHoldExpired taps).au = p.au := by
  simp [Plant.takeHoldExpired]

@[simp] theorem Plant.takeValve_frame (p : Plant) (i : Nat) (isOpen cutOff : Bool) :
    (p.takeValve i isOpen cutOff).msc = p.msc ∧ (p.takeValve i isOpen cutOff).sbc = p.sbc ∧ (p.takeValve i isOpen cutOff).cs = p.cs := by
  unfold Plant.takeValve; (repeat' split) <;> simp [ite_msc, ite_sbc, ite_cs]

@[simp] theorem Plant.takeStall_frame (p : Plant) (i : Nat) (counted : Bool) :
    (p.takeStall i counted).msc = p.msc ∧ (p.takeStall i counted).sbc = p.sbc ∧ (p.takeStall i counted).lm = p.lm ∧ (p.takeStall i counted).tkm = p.tkm ∧ (p.takeStall i counted).cc = p.cc ∧ (p.takeStall i counted).cs = p.cs ∧ (p.takeStall i counted).au = p.au := by
  unfold Plant.takeStall; (repeat' split) <;> simp

@[simp] theorem Plant.takeHandle_frame (p : Plant) (i : Nat) (before : Option Bool) (pressed : Bool) :
    (p.takeHandle i before pressed).msc = p.msc ∧ (p.takeHandle i before pressed).sbc = p.sbc ∧ (p.takeHandle i before pressed).cc = p.cc ∧ (p.takeHandle i before pressed).cs = p.cs := by
  unfold Plant.takeHandle; (repeat' split) <;> simp

@[simp] theorem Plant.takeCap_frame (p : Plant) (i : Nat) (fitted : Bool) :
    (p.takeCap i fitted).msc = p.msc ∧ (p.takeCap i fitted).sbc = p.sbc ∧ (p.takeCap i fitted).tkm = p.tkm := by
  unfold Plant.takeCap; (repeat' split) <;> simp [ite_msc, ite_sbc, ite_tkm]

@[simp] theorem Plant.takeTap_frame (p : Plant) (i : Nat) (inp : TapInput) (before : Option Bool) (initial : Bool) :
    (p.takeTap i inp before initial).msc = p.msc ∧ (p.takeTap i inp before initial).sbc = p.sbc := by
  simp [Plant.takeTap]

@[simp] theorem Plant.tapStatus_frame (p : Plant) (a : Nat) (taps : List TapInput) (old : Option (List TapInput)) (holdExpired : Bool) :
    (p.tapStatus a taps old holdExpired).msc = p.msc ∧ (p.tapStatus a taps old holdExpired).sbc = p.sbc := by
  unfold Plant.tapStatus; exact ⟨(foldl_keeps Plant.msc _ (by intro q a; (try dsimp only); (repeat' split) <;> simp) _ _).trans (by (repeat' split) <;> simp), (foldl_keeps Plant.sbc _ (by intro q a; (try dsimp only); (repeat' split) <;> simp) _ _).trans (by (repeat' split) <;> simp)⟩

@[simp] theorem Plant.losePour_frame (p : Plant) (i : Nat) :
    (p.losePour i).msc = p.msc ∧ (p.losePour i).sbc = p.sbc ∧ (p.losePour i).cs = p.cs := by
  unfold Plant.losePour; (repeat' split) <;> simp

@[simp] theorem Plant.tapLoss_frame (p : Plant) (a : Nat) :
    (p.tapLoss a).msc = p.msc ∧ (p.tapLoss a).sbc = p.sbc ∧ (p.tapLoss a).cs = p.cs := by
  simp [Plant.tapLoss]

@[simp] theorem Plant.takeLate_frame (p : Plant) (i : Nat) (c : Count24) :
    (p.takeLate i c).msc = p.msc ∧ (p.takeLate i c).sbc = p.sbc ∧ (p.takeLate i c).tkm = p.tkm ∧ (p.takeLate i c).cc = p.cc ∧ (p.takeLate i c).cs = p.cs := by
  unfold Plant.takeLate; (repeat' split) <;> simp [ite_msc, ite_sbc, ite_tkm, ite_cc, ite_cs]

@[simp] theorem Plant.tapJoin_frame (p : Plant) (a : Nat) (taps : List TapInput) (restarted holdExpired : Bool) :
    (p.tapJoin a taps restarted holdExpired).msc = p.msc ∧ (p.tapJoin a taps restarted holdExpired).sbc = p.sbc := by
  unfold Plant.tapJoin; refine ⟨?_, ?_⟩ <;> ((repeat' split) <;> first | rfl | (simp; done) | (simp; apply foldl_keeps; intro q a; (try dsimp only); (repeat' split) <;> simp) | (apply foldl_keeps; intro q a; (try dsimp only); (repeat' split) <;> simp))

@[simp] theorem Plant.peStop_frame (p : Plant) :
    (p.peStop).msc = p.msc ∧ (p.peStop).sbc = p.sbc ∧ (p.peStop).lm = p.lm ∧ (p.peStop).tkm = p.tkm ∧ (p.peStop).cc = p.cc ∧ (p.peStop).cs = p.cs ∧ (p.peStop).au = p.au := by
  simp [Plant.peStop]

/-! ### Cellar -/

@[simp] theorem Plant.kegEndOut_frame (p : Plant) (l : Nat) :
    (p.kegEndOut l).msc = p.msc ∧ (p.kegEndOut l).sbc = p.sbc ∧ (p.kegEndOut l).tkm = p.tkm ∧ (p.kegEndOut l).pe = p.pe ∧ (p.kegEndOut l).cc = p.cc ∧ (p.kegEndOut l).cs = p.cs := by
  unfold Plant.kegEndOut; (repeat' split) <;> simp

@[simp] theorem Plant.kegEndReturn_frame (p : Plant) (l : Nat) :
    (p.kegEndReturn l).msc = p.msc ∧ (p.kegEndReturn l).sbc = p.sbc ∧ (p.kegEndReturn l).tkm = p.tkm := by
  unfold Plant.kegEndReturn; (repeat' split) <;> simp

@[simp] theorem Plant.kegEnd_frame (p : Plant) (l : Nat) (cause : EndCause) :
    (p.kegEnd l cause).msc = p.msc ∧ (p.kegEnd l cause).sbc = p.sbc ∧ (p.kegEnd l cause).tkm = p.tkm := by
  unfold Plant.kegEnd; (repeat' split) <;> simp

@[simp] theorem Plant.kegRemoved_frame (p : Plant) (i : Nat) :
    (p.kegRemoved i).msc = p.msc ∧ (p.kegRemoved i).sbc = p.sbc ∧ (p.kegRemoved i).tkm = p.tkm := by
  unfold Plant.kegRemoved; (try dsimp only); (repeat' split) <;> (try dsimp only) <;> (repeat' split) <;> simp

@[simp] theorem Plant.fobEvent_frame (p : Plant) (l : Nat) (tripped : Bool) :
    (p.fobEvent l tripped).msc = p.msc ∧ (p.fobEvent l tripped).sbc = p.sbc ∧ (p.fobEvent l tripped).tkm = p.tkm := by
  unfold Plant.fobEvent; (repeat' split) <;> simp

@[simp] theorem Plant.takeStandbys_frame (p : Plant) (a : Nat) (gone : List Nat) (x : Line) :
    (p.takeStandbys a gone x).msc = p.msc ∧ (p.takeStandbys a gone x).sbc = p.sbc ∧ (p.takeStandbys a gone x).tkm = p.tkm := by
  unfold Plant.takeStandbys
  refine ⟨foldl_keeps Plant.msc _ ?_ _ _, foldl_keeps Plant.sbc _ ?_ _ _, foldl_keeps Plant.tkm _ ?_ _ _⟩ <;>
    (intro q k; (try dsimp only); (repeat' split) <;> simp)

@[simp] theorem Plant.removalAt_frame (p : Plant) (a : Nat) (gone : List Nat) (k : Nat) :
    (p.removalAt a gone k).msc = p.msc ∧ (p.removalAt a gone k).sbc = p.sbc ∧ (p.removalAt a gone k).tkm = p.tkm := by
  unfold Plant.removalAt; (repeat' split) <;> simp

@[simp] theorem Plant.cellarStatus_frame (p : Plant) (a : Nat) (kegs : Vector Bool 16) (fobs : Vector Bool 12)
    (old : Option (Vector Bool 16 × Vector Bool 12)) :
    (p.cellarStatus a kegs fobs old).msc = p.msc ∧ (p.cellarStatus a kegs fobs old).sbc = p.sbc
      ∧ (p.cellarStatus a kegs fobs old).tkm = p.tkm := by
  unfold Plant.cellarStatus
  refine ⟨(foldl_keeps Plant.msc _ ?_ _ _).trans (foldl_keeps Plant.msc _ ?_ _ _),
    (foldl_keeps Plant.sbc _ ?_ _ _).trans (foldl_keeps Plant.sbc _ ?_ _ _),
    (foldl_keeps Plant.tkm _ ?_ _ _).trans (foldl_keeps Plant.tkm _ ?_ _ _)⟩ <;>
    (intro q k; (try dsimp only); (repeat' split) <;> simp)

@[simp] theorem Plant.cellarLoss_frame (p : Plant) (a : Nat) :
    (p.cellarLoss a).msc = p.msc ∧ (p.cellarLoss a).sbc = p.sbc ∧ (p.cellarLoss a).tkm = p.tkm ∧ (p.cellarLoss a).cc = p.cc ∧ (p.cellarLoss a).cs = p.cs := by
  unfold Plant.cellarLoss; (repeat' split) <;> simp [ite_msc, ite_sbc, ite_tkm, ite_cc, ite_cs]

@[simp] theorem Plant.cellarJoin_frame (p : Plant) (a : Nat) (kegs : Vector Bool 16) (fobs : Vector Bool 12) :
    (p.cellarJoin a kegs fobs).msc = p.msc ∧ (p.cellarJoin a kegs fobs).sbc = p.sbc ∧ (p.cellarJoin a kegs fobs).tkm = p.tkm := by
  simp [Plant.cellarJoin]

end Sys2Proof.Machine
end

