-- ==== Sys2Proof/Laws/Bus.lean ====
section
/-!
SUPPORT. What the operations of SBC leave as it is, block by block.
-/

namespace Sys2Proof.Machine

@[simp] theorem Plant.modSbc_frame (p : Plant) (f : Sbc → Sbc) :
    (p.modSbc f).msc = p.msc ∧ (p.modSbc f).lm = p.lm ∧ (p.modSbc f).tkm = p.tkm ∧ (p.modSbc f).pe = p.pe ∧ (p.modSbc f).cc = p.cc ∧ (p.modSbc f).cs = p.cs ∧ (p.modSbc f).au = p.au ∧ (p.modSbc f).raised = p.raised := by
  exact ⟨rfl, rfl, rfl, rfl, rfl, rfl, rfl, rfl⟩

@[simp] theorem Plant.modStation_frame (p : Plant) (a : Nat) (f : Station → Station) :
    (p.modStation a f).msc = p.msc ∧ (p.modStation a f).lm = p.lm ∧ (p.modStation a f).tkm = p.tkm ∧ (p.modStation a f).pe = p.pe ∧ (p.modStation a f).cc = p.cc ∧ (p.modStation a f).cs = p.cs ∧ (p.modStation a f).au = p.au ∧ (p.modStation a f).raised = p.raised := by
  simp [Plant.modStation]

@[simp] theorem Plant.sendDescribe_frame (p : Plant) (a : Nat) (why : Purpose) :
    (p.sendDescribe a why).msc = p.msc ∧ (p.sendDescribe a why).lm = p.lm ∧ (p.sendDescribe a why).tkm = p.tkm ∧ (p.sendDescribe a why).pe = p.pe ∧ (p.sendDescribe a why).cc = p.cc ∧ (p.sendDescribe a why).cs = p.cs ∧ (p.sendDescribe a why).au = p.au ∧ (p.sendDescribe a why).raised = p.raised := by
  exact ⟨rfl, rfl, rfl, rfl, rfl, rfl, rfl, rfl⟩

@[simp] theorem Plant.sendPoll_frame (p : Plant) (a : Nat) :
    (p.sendPoll a).msc = p.msc ∧ (p.sendPoll a).lm = p.lm ∧ (p.sendPoll a).tkm = p.tkm ∧ (p.sendPoll a).pe = p.pe ∧ (p.sendPoll a).cc = p.cc ∧ (p.sendPoll a).cs = p.cs ∧ (p.sendPoll a).au = p.au ∧ (p.sendPoll a).raised = p.raised := by
  exact ⟨rfl, rfl, rfl, rfl, rfl, rfl, rfl, rfl⟩

@[simp] theorem Plant.beginJoin_frame (p : Plant) (a : Nat) (was : JoinedFrom) :
    (p.beginJoin a was).msc = p.msc ∧ (p.beginJoin a was).lm = p.lm ∧ (p.beginJoin a was).tkm = p.tkm ∧ (p.beginJoin a was).pe = p.pe ∧ (p.beginJoin a was).cc = p.cc ∧ (p.beginJoin a was).cs = p.cs ∧ (p.beginJoin a was).au = p.au ∧ (p.beginJoin a was).raised = p.raised := by
  simp [Plant.beginJoin]

@[simp] theorem Plant.joinFrame_frame (p : Plant) (a : Nat) :
    (p.joinFrame a).msc = p.msc ∧ (p.joinFrame a).lm = p.lm ∧ (p.joinFrame a).tkm = p.tkm ∧ (p.joinFrame a).pe = p.pe ∧ (p.joinFrame a).cc = p.cc ∧ (p.joinFrame a).cs = p.cs ∧ (p.joinFrame a).au = p.au ∧ (p.joinFrame a).raised = p.raised := by
  unfold Plant.joinFrame; (repeat' split) <;> simp

@[simp] theorem Plant.clearDue_frame (p : Plant) (a : Nat) :
    (p.clearDue a).msc = p.msc ∧ (p.clearDue a).lm = p.lm ∧ (p.clearDue a).tkm = p.tkm ∧ (p.clearDue a).pe = p.pe ∧ (p.clearDue a).cc = p.cc ∧ (p.clearDue a).cs = p.cs ∧ (p.clearDue a).au = p.au ∧ (p.clearDue a).raised = p.raised := by
  simp [Plant.clearDue]

@[simp] theorem Plant.visit_frame (p : Plant) (a : Nat) :
    (p.visit a).msc = p.msc ∧ (p.visit a).lm = p.lm ∧ (p.visit a).tkm = p.tkm ∧ (p.visit a).pe = p.pe ∧ (p.visit a).cc = p.cc ∧ (p.visit a).cs = p.cs ∧ (p.visit a).au = p.au ∧ (p.visit a).raised = p.raised := by
  unfold Plant.visit; (try dsimp only); (repeat' split) <;> (try dsimp only) <;> (repeat' split) <;> simp

@[simp] theorem Plant.roundEnd_frame (p : Plant) :
    (p.roundEnd).msc = p.msc ∧ (p.roundEnd).lm = p.lm ∧ (p.roundEnd).tkm = p.tkm ∧ (p.roundEnd).pe = p.pe ∧ (p.roundEnd).cc = p.cc ∧ (p.roundEnd).cs = p.cs ∧ (p.roundEnd).au = p.au ∧ (p.roundEnd).raised = p.raised := by
  exact ⟨rfl, rfl, rfl, rfl, rfl, rfl, rfl, rfl⟩

@[simp] theorem Plant.serve_frame (p : Plant) (a : Nat) :
    (p.serve a).msc = p.msc ∧ (p.serve a).lm = p.lm ∧ (p.serve a).tkm = p.tkm ∧ (p.serve a).pe = p.pe ∧ (p.serve a).cc = p.cc ∧ (p.serve a).cs = p.cs ∧ (p.serve a).au = p.au ∧ (p.serve a).raised = p.raised := by
  unfold Plant.serve; (try dsimp only); (repeat' split) <;> (try dsimp only) <;> (repeat' split) <;> simp

@[simp] theorem Plant.endExchange_frame (p : Plant) :
    (p.endExchange).msc = p.msc ∧ (p.endExchange).lm = p.lm ∧ (p.endExchange).tkm = p.tkm ∧ (p.endExchange).pe = p.pe ∧ (p.endExchange).cc = p.cc ∧ (p.endExchange).cs = p.cs ∧ (p.endExchange).au = p.au ∧ (p.endExchange).raised = p.raised := by
  unfold Plant.endExchange; (try dsimp only); (repeat' split) <;> (try dsimp only) <;> (repeat' split) <;> simp

@[simp] theorem Plant.raiseStation_frame (p : Plant) (a second : Nat) :
    (p.raiseStation a second).msc = p.msc ∧ (p.raiseStation a second).sbc = p.sbc ∧ (p.raiseStation a second).lm = p.lm ∧ (p.raiseStation a second).tkm = p.tkm ∧ (p.raiseStation a second).pe = p.pe ∧ (p.raiseStation a second).cc = p.cc ∧ (p.raiseStation a second).cs = p.cs ∧ (p.raiseStation a second).au = p.au := by
  exact ⟨rfl, rfl, rfl, rfl, rfl, rfl, rfl, rfl⟩

@[simp] theorem Plant.lossReport_frame (p : Plant) (a : Nat) :
    (p.lossReport a).msc = p.msc ∧ (p.lossReport a).sbc = p.sbc := by
  unfold Plant.lossReport; (repeat' split) <;> simp

@[simp] theorem Plant.joinReport_frame (p : Plant) (a : Nat) (image : InputImage) (restarted holdExpired : Bool) :
    (p.joinReport a image restarted holdExpired).msc = p.msc ∧ (p.joinReport a image restarted holdExpired).sbc = p.sbc := by
  unfold Plant.joinReport; (repeat' split) <;> simp

@[simp] theorem Plant.statusArrival_frame (p : Plant) (a : Nat) (image : InputImage) (old : Option InputImage) (holdExpired : Bool) :
    (p.statusArrival a image old holdExpired).msc = p.msc ∧ (p.statusArrival a image old holdExpired).sbc = p.sbc := by
  unfold Plant.statusArrival; (repeat' split) <;> simp

@[simp] theorem Plant.loseByMisses_frame (p : Plant) (a : Nat) :
    (p.loseByMisses a).msc = p.msc := by
  simp [Plant.loseByMisses]

@[simp] theorem Plant.restartStation_frame (p : Plant) (a : Nat) :
    (p.restartStation a).msc = p.msc := by
  simp [Plant.restartStation]

@[simp] theorem Plant.takeMiss_frame (p : Plant) (x : Exchange) (characters : Bool) :
    (p.takeMiss x characters).msc = p.msc := by
  unfold Plant.takeMiss; (try dsimp only); (repeat' split) <;> (try dsimp only) <;> (repeat' split) <;> simp

@[simp] theorem Plant.joinStatus_frame (p : Plant) (a : Nat) (r : StatusReply) :
    (p.joinStatus a r).msc = p.msc := by
  unfold Plant.joinStatus; (repeat' split) <;> simp

@[simp] theorem Plant.raiseTrace_frame (p : Plant) (a : Nat) (image : InputImage) :
    (p.raiseTrace a image).msc = p.msc ∧ (p.raiseTrace a image).sbc = p.sbc ∧ (p.raiseTrace a image).lm = p.lm ∧ (p.raiseTrace a image).tkm = p.tkm ∧ (p.raiseTrace a image).pe = p.pe ∧ (p.raiseTrace a image).cc = p.cc ∧ (p.raiseTrace a image).cs = p.cs ∧ (p.raiseTrace a image).au = p.au := by
  simp [Plant.raiseTrace]

@[simp] theorem Plant.activeStatus_frame (p : Plant) (a : Nat) (r : StatusReply) :
    (p.activeStatus a r).msc = p.msc := by
  unfold Plant.activeStatus; (repeat' split) <;> simp

@[simp] theorem Plant.takeStatus_frame (p : Plant) (a : Nat) (r : StatusReply) :
    (p.takeStatus a r).msc = p.msc := by
  unfold Plant.takeStatus; (try dsimp only); (repeat' split) <;> (try dsimp only) <;> (repeat' split) <;> simp

@[simp] theorem Plant.takeDescriptor_frame (p : Plant) (a : Nat) (d : Descriptor) :
    (p.takeDescriptor a d).msc = p.msc ∧ (p.takeDescriptor a d).lm = p.lm ∧ (p.takeDescriptor a d).tkm = p.tkm ∧ (p.takeDescriptor a d).pe = p.pe ∧ (p.takeDescriptor a d).cc = p.cc ∧ (p.takeDescriptor a d).cs = p.cs ∧ (p.takeDescriptor a d).au = p.au := by
  unfold Plant.takeDescriptor; (repeat' split) <;> simp [ite_msc, ite_lm, ite_tkm, ite_pe, ite_cc, ite_cs, ite_au]

@[simp] theorem Plant.scanDescriptor_frame (p : Plant) (a : Nat) (d : Descriptor) :
    (p.scanDescriptor a d).msc = p.msc := by
  unfold Plant.scanDescriptor; (repeat' split) <;> simp [ite_msc]

@[simp] theorem Plant.sendCloseAll_frame (p : Plant) :
    (p.sendCloseAll).msc = p.msc ∧ (p.sendCloseAll).lm = p.lm ∧ (p.sendCloseAll).tkm = p.tkm ∧ (p.sendCloseAll).pe = p.pe ∧ (p.sendCloseAll).cc = p.cc ∧ (p.sendCloseAll).cs = p.cs ∧ (p.sendCloseAll).au = p.au ∧ (p.sendCloseAll).raised = p.raised := by
  unfold Plant.sendCloseAll; (repeat' split) <;> simp [ite_msc, ite_lm, ite_tkm, ite_pe, ite_cc, ite_cs, ite_au, ite_raised]

end Sys2Proof.Machine
end

