-- ==== Sys2Proof/Laws/Commands.lean ====
section
/-!
SUPPORT. What the effects of the commands leave as it is, block by block.
-/

namespace Sys2Proof.Machine

/-! ### CellarRequests -/

@[simp] theorem Plant.forceChangeover_frame (p : Plant) (line : Nat) :
    (p.forceChangeover line).msc = p.msc ∧ (p.forceChangeover line).sbc = p.sbc ∧ (p.forceChangeover line).tkm = p.tkm ∧ (p.forceChangeover line).cc = p.cc ∧ (p.forceChangeover line).cs = p.cs := by
  unfold Plant.forceChangeover; (repeat' split) <;> simp

@[simp] theorem Plant.lineOut_frame (p : Plant) (line : Nat) :
    (p.lineOut line).msc = p.msc ∧ (p.lineOut line).sbc = p.sbc ∧ (p.lineOut line).tkm = p.tkm ∧ (p.lineOut line).cc = p.cc ∧ (p.lineOut line).cs = p.cs ∧ (p.lineOut line).au = p.au := by
  simp [Plant.lineOut]

@[simp] theorem Plant.lineIn_frame (p : Plant) (line : Nat) :
    (p.lineIn line).msc = p.msc ∧ (p.lineIn line).sbc = p.sbc ∧ (p.lineIn line).tkm = p.tkm ∧ (p.lineIn line).cc = p.cc ∧ (p.lineIn line).cs = p.cs ∧ (p.lineIn line).au = p.au := by
  unfold Plant.lineIn; (repeat' split) <;> simp

/-! ### TapRequests -/

@[simp] theorem Plant.readViews_frame (p : Plant) (l : Nat) :
    (p.readViews l).msc = p.msc ∧ (p.readViews l).sbc = p.sbc ∧ (p.readViews l).lm = p.lm ∧ (p.readViews l).tkm = p.tkm ∧ (p.readViews l).cc = p.cc ∧ (p.readViews l).cs = p.cs ∧ (p.readViews l).au = p.au ∧ (p.readViews l).raised = p.raised := by
  unfold Plant.readViews; (repeat' split) <;> simp

/-! ### BusRequests -/

@[simp] theorem Plant.loseRedefined_frame (p : Plant) (a : Nat) :
    (p.loseRedefined a).msc = p.msc := by
  unfold Plant.loseRedefined; (repeat' split) <;> simp

@[simp] theorem Plant.rebind_frame (p : Plant) (a : Nat) (d : StationDef) :
    (p.rebind a d).msc = p.msc ∧ (p.rebind a d).sbc = p.sbc ∧ (p.rebind a d).tkm = p.tkm ∧ (p.rebind a d).pe = p.pe ∧ (p.rebind a d).cc = p.cc ∧ (p.rebind a d).cs = p.cs ∧ (p.rebind a d).au = p.au := by
  unfold Plant.rebind; (repeat' split) <;> simp

@[simp] theorem Plant.redefineStation_frame (p : Plant) (a : Nat) (d : StationDef) :
    (p.redefineStation a d).msc = p.msc := by
  unfold Plant.redefineStation; (repeat' split) <;> simp [ite_msc]

@[simp] theorem Plant.keepStation_frame (p : Plant) (a : Nat) :
    (p.keepStation a).msc = p.msc ∧ (p.keepStation a).lm = p.lm ∧ (p.keepStation a).tkm = p.tkm ∧ (p.keepStation a).pe = p.pe ∧ (p.keepStation a).cc = p.cc ∧ (p.keepStation a).cs = p.cs ∧ (p.keepStation a).au = p.au ∧ (p.keepStation a).raised = p.raised := by
  simp [Plant.keepStation]

@[simp] theorem Plant.traceStation_frame (p : Plant) (address : Nat) (on : Bool) :
    (p.traceStation address on).msc = p.msc ∧ (p.traceStation address on).lm = p.lm ∧ (p.traceStation address on).tkm = p.tkm ∧ (p.traceStation address on).pe = p.pe ∧ (p.traceStation address on).cc = p.cc ∧ (p.traceStation address on).cs = p.cs ∧ (p.traceStation address on).au = p.au ∧ (p.traceStation address on).raised = p.raised := by
  unfold Plant.traceStation; (repeat' split) <;> simp

/-! ### CoolingRequests -/

@[simp] theorem Plant.defineTrunk_frame (p : Plant) (i : Nat) (use : Bool) (warm hot : Int) :
    (p.defineTrunk i use warm hot).msc = p.msc ∧ (p.defineTrunk i use warm hot).sbc = p.sbc ∧ (p.defineTrunk i use warm hot).lm = p.lm ∧ (p.defineTrunk i use warm hot).tkm = p.tkm ∧ (p.defineTrunk i use warm hot).au = p.au := by
  unfold Plant.defineTrunk; (repeat' split) <;> simp [ite_msc, ite_sbc, ite_lm, ite_tkm, ite_au]

/-! ### CleaningRequests -/

@[simp] theorem Plant.addJob_frame (p : Plant) (id trunk : Nat) (lines : List Nat) (programme : Nat) :
    (p.addJob id trunk lines programme).msc = p.msc ∧ (p.addJob id trunk lines programme).sbc = p.sbc ∧ (p.addJob id trunk lines programme).tkm = p.tkm ∧ (p.addJob id trunk lines programme).pe = p.pe ∧ (p.addJob id trunk lines programme).cc = p.cc ∧ (p.addJob id trunk lines programme).au = p.au := by
  simp [Plant.addJob]

@[simp] theorem Plant.hostAbort_frame (p : Plant) (j : Job) :
    (p.hostAbort j).msc = p.msc ∧ (p.hostAbort j).sbc = p.sbc ∧ (p.hostAbort j).tkm = p.tkm := by
  unfold Plant.hostAbort; (repeat' split) <;> simp

/-! ### JournalRequests -/

@[simp] theorem Plant.freeEntries_frame (p : Plant) (freed : Nat) :
    (p.freeEntries freed).msc = p.msc ∧ (p.freeEntries freed).sbc = p.sbc ∧ (p.freeEntries freed).lm = p.lm ∧ (p.freeEntries freed).tkm = p.tkm ∧ (p.freeEntries freed).pe = p.pe ∧ (p.freeEntries freed).cc = p.cc ∧ (p.freeEntries freed).cs = p.cs ∧ (p.freeEntries freed).raised = p.raised := by
  unfold Plant.freeEntries; (repeat' split) <;> simp

@[simp] theorem Plant.spaceEvent_frame (p : Plant) :
    (p.spaceEvent).msc = p.msc ∧ (p.spaceEvent).sbc = p.sbc ∧ (p.spaceEvent).lm = p.lm ∧ (p.spaceEvent).tkm = p.tkm ∧ (p.spaceEvent).cc = p.cc ∧ (p.spaceEvent).cs = p.cs := by
  unfold Plant.spaceEvent; (repeat' split) <;> simp

@[simp] theorem Plant.rearm_frame (p : Plant) (before : Nat) :
    (p.rearm before).msc = p.msc ∧ (p.rearm before).sbc = p.sbc ∧ (p.rearm before).lm = p.lm ∧ (p.rearm before).tkm = p.tkm ∧ (p.rearm before).pe = p.pe ∧ (p.rearm before).cc = p.cc ∧ (p.rearm before).cs = p.cs ∧ (p.rearm before).raised = p.raised := by
  unfold Plant.rearm; (repeat' split) <;> simp

@[simp] theorem Plant.release_frame (p : Plant) (q : Word32) :
    (p.release q).msc = p.msc ∧ (p.release q).sbc = p.sbc ∧ (p.release q).lm = p.lm ∧ (p.release q).tkm = p.tkm ∧ (p.release q).cc = p.cc ∧ (p.release q).cs = p.cs := by
  unfold Plant.release; (repeat' split) <;> simp

@[simp] theorem Plant.leaks_frame (p : Plant) :
    (p.leaks).msc = p.msc ∧ (p.leaks).sbc = p.sbc ∧ (p.leaks).lm = p.lm ∧ (p.leaks).tkm = p.tkm ∧ (p.leaks).cc = p.cc ∧ (p.leaks).cs = p.cs := by
  simp [Plant.leaks]

@[simp] theorem Plant.openPeriod_frame (p : Plant) :
    (p.openPeriod).msc = p.msc ∧ (p.openPeriod).sbc = p.sbc ∧ (p.openPeriod).lm = p.lm ∧ (p.openPeriod).tkm = p.tkm ∧ (p.openPeriod).pe = p.pe ∧ (p.openPeriod).cc = p.cc ∧ (p.openPeriod).cs = p.cs ∧ (p.openPeriod).raised = p.raised := by
  exact ⟨rfl, rfl, rfl, rfl, rfl, rfl, rfl, rfl⟩

@[simp] theorem Plant.closePeriod_frame (p : Plant) :
    (p.closePeriod).msc = p.msc ∧ (p.closePeriod).sbc = p.sbc ∧ (p.closePeriod).lm = p.lm ∧ (p.closePeriod).tkm = p.tkm ∧ (p.closePeriod).cc = p.cc ∧ (p.closePeriod).cs = p.cs := by
  simp [Plant.closePeriod]

/-! ### Modes -/

@[simp] theorem Plant.modMsc_frame (p : Plant) (f : Msc → Msc) :
    (p.modMsc f).sbc = p.sbc ∧ (p.modMsc f).lm = p.lm ∧ (p.modMsc f).tkm = p.tkm ∧ (p.modMsc f).pe = p.pe ∧ (p.modMsc f).cc = p.cc ∧ (p.modMsc f).cs = p.cs ∧ (p.modMsc f).au = p.au ∧ (p.modMsc f).raised = p.raised := by
  exact ⟨rfl, rfl, rfl, rfl, rfl, rfl, rfl, rfl⟩

@[simp] theorem Plant.lineLive_frame (p : Plant) (l : Nat) :
    (p.lineLive l).msc = p.msc ∧ (p.lineLive l).sbc = p.sbc ∧ (p.lineLive l).tkm = p.tkm ∧ (p.lineLive l).cc = p.cc ∧ (p.lineLive l).cs = p.cs ∧ (p.lineLive l).au = p.au := by
  unfold Plant.lineLive; (repeat' split) <;> simp

@[simp] theorem Plant.goLive_frame (p : Plant) :
    (p.goLive).sbc = p.sbc ∧ (p.goLive).tkm = p.tkm ∧ (p.goLive).cs = p.cs := by
  unfold Plant.goLive; (repeat' split) <;> simp

@[simp] theorem Plant.raiseStop_frame (p : Plant) :
    (p.raiseStop).msc = p.msc ∧ (p.raiseStop).sbc = p.sbc ∧ (p.raiseStop).lm = p.lm ∧ (p.raiseStop).tkm = p.tkm ∧ (p.raiseStop).pe = p.pe ∧ (p.raiseStop).cc = p.cc ∧ (p.raiseStop).cs = p.cs ∧ (p.raiseStop).au = p.au := by
  exact ⟨rfl, rfl, rfl, rfl, rfl, rfl, rfl, rfl⟩

@[simp] theorem Plant.recordStop_frame (p : Plant) (onset : Bool) (source : StopSource) :
    (p.recordStop onset source).msc = p.msc ∧ (p.recordStop onset source).sbc = p.sbc ∧ (p.recordStop onset source).lm = p.lm ∧ (p.recordStop onset source).tkm = p.tkm ∧ (p.recordStop onset source).pe = p.pe ∧ (p.recordStop onset source).cc = p.cc ∧ (p.recordStop onset source).cs = p.cs := by
  unfold Plant.recordStop; (repeat' split) <;> simp

@[simp] theorem Plant.stopOnset_frame (p : Plant) (st : StopState) (source : StopSource) :
    (p.stopOnset st source).tkm = p.tkm := by
  simp [Plant.stopOnset]

@[simp] theorem Plant.stopByRequest_frame (p : Plant) :
    (p.stopByRequest).tkm = p.tkm := by
  unfold Plant.stopByRequest; (repeat' split) <;> simp

@[simp] theorem Plant.stopRelease_frame (p : Plant) :
    (p.stopRelease).sbc = p.sbc ∧ (p.stopRelease).lm = p.lm ∧ (p.stopRelease).tkm = p.tkm ∧ (p.stopRelease).cc = p.cc := by
  simp [Plant.stopRelease]

@[simp] theorem Plant.pinFall_frame (p : Plant) :
    (p.pinFall).tkm = p.tkm := by
  unfold Plant.pinFall; (repeat' split) <;> simp

@[simp] theorem Plant.pinRise_frame (p : Plant) :
    (p.pinRise).sbc = p.sbc ∧ (p.pinRise).lm = p.lm ∧ (p.pinRise).tkm = p.tkm ∧ (p.pinRise).pe = p.pe ∧ (p.pinRise).cc = p.cc ∧ (p.pinRise).cs = p.cs ∧ (p.pinRise).au = p.au := by
  exact ⟨rfl, rfl, rfl, rfl, rfl, rfl, rfl⟩

/-! ### Link -/

@[simp] theorem Plant.resetCursor_frame (p : Plant) :
    (p.resetCursor).msc = p.msc ∧ (p.resetCursor).sbc = p.sbc ∧ (p.resetCursor).lm = p.lm ∧ (p.resetCursor).tkm = p.tkm ∧ (p.resetCursor).pe = p.pe ∧ (p.resetCursor).cc = p.cc ∧ (p.resetCursor).cs = p.cs ∧ (p.resetCursor).raised = p.raised := by
  exact ⟨rfl, rfl, rfl, rfl, rfl, rfl, rfl, rfl⟩

/-! ### BusEvents -/

@[simp] theorem Plant.nextVisit_frame (p : Plant) :
    (p.nextVisit).msc = p.msc ∧ (p.nextVisit).lm = p.lm ∧ (p.nextVisit).tkm = p.tkm ∧ (p.nextVisit).pe = p.pe ∧ (p.nextVisit).cc = p.cc ∧ (p.nextVisit).cs = p.cs ∧ (p.nextVisit).au = p.au ∧ (p.nextVisit).raised = p.raised := by
  unfold Plant.nextVisit; (repeat' split) <;> simp

@[simp] theorem Plant.attentionCall_frame (p : Plant) (k : Nat) (contenders : List (BitVec 5)) :
    (p.attentionCall k contenders).msc = p.msc ∧ (p.attentionCall k contenders).lm = p.lm ∧ (p.attentionCall k contenders).tkm = p.tkm ∧ (p.attentionCall k contenders).pe = p.pe ∧ (p.attentionCall k contenders).cc = p.cc ∧ (p.attentionCall k contenders).cs = p.cs ∧ (p.attentionCall k contenders).au = p.au ∧ (p.attentionCall k contenders).raised = p.raised := by
  unfold Plant.attentionCall; (repeat' split) <;> simp [ite_msc, ite_lm, ite_tkm, ite_pe, ite_cc, ite_cs, ite_au, ite_raised]

@[simp] theorem Plant.missExchange_frame (p : Plant) (x : Exchange) (characters : Bool) :
    (p.missExchange x characters).msc = p.msc := by
  simp [Plant.missExchange]

@[simp] theorem Plant.statusReply_frame (p : Plant) (x : Exchange) (r : StatusReply) :
    (p.statusReply x r).msc = p.msc := by
  unfold Plant.statusReply; (repeat' split) <;> simp

@[simp] theorem Plant.descriptorReply_frame (p : Plant) (x : Exchange) (address : Nat) (d : Descriptor) :
    (p.descriptorReply x address d).msc = p.msc := by
  unfold Plant.descriptorReply; (repeat' split) <;> simp

/-! ### Timers -/

@[simp] theorem Plant.reach_frame (p : Plant) (d : Nat) :
    (p.reach d).sbc = p.sbc ∧ (p.reach d).lm = p.lm ∧ (p.reach d).tkm = p.tkm ∧ (p.reach d).pe = p.pe ∧ (p.reach d).cc = p.cc ∧ (p.reach d).cs = p.cs ∧ (p.reach d).au = p.au ∧ (p.reach d).raised = p.raised := by
  exact ⟨rfl, rfl, rfl, rfl, rfl, rfl, rfl, rfl⟩

@[simp] theorem Plant.dropCalibration_frame (p : Plant) (tap : Nat) :
    (p.dropCalibration tap).msc = p.msc ∧ (p.dropCalibration tap).sbc = p.sbc ∧ (p.dropCalibration tap).lm = p.lm ∧ (p.dropCalibration tap).tkm = p.tkm ∧ (p.dropCalibration tap).cc = p.cc ∧ (p.dropCalibration tap).cs = p.cs ∧ (p.dropCalibration tap).au = p.au ∧ (p.dropCalibration tap).raised = p.raised := by
  exact ⟨rfl, rfl, rfl, rfl, rfl, rfl, rfl, rfl⟩

theorem Plant.withJob_keeps {β : Type} (g : Plant → β) (p : Plant) (job : Nat) (f : Job → Plant → Plant) (h : ∀ j q, g (f j q) = g q) :
    g (p.withJob job f) = g p := by
  unfold Plant.withJob; split
  · rfl
  · exact h _ _

@[simp] theorem Plant.switchPhase_frame (p : Plant) (job : Nat) :
    (p.switchPhase job).msc = p.msc ∧ (p.switchPhase job).sbc = p.sbc ∧ (p.switchPhase job).lm = p.lm ∧ (p.switchPhase job).tkm = p.tkm
      ∧ (p.switchPhase job).cc = p.cc ∧ (p.switchPhase job).au = p.au := by
  unfold Plant.switchPhase
  refine ⟨?_, ?_, ?_, ?_, ?_, ?_⟩ <;> (apply Plant.withJob_keeps; intro j q; (repeat' split) <;> simp)

/-! ### Tick -/

@[simp] theorem Plant.pass_frame (p : Plant) :
    (p.pass).sbc = p.sbc ∧ (p.pass).lm = p.lm ∧ (p.pass).tkm = p.tkm ∧ (p.pass).pe = p.pe ∧ (p.pass).cc = p.cc ∧ (p.pass).cs = p.cs ∧ (p.pass).au = p.au ∧ (p.pass).raised = p.raised := by
  exact ⟨rfl, rfl, rfl, rfl, rfl, rfl, rfl, rfl⟩

end Sys2Proof.Machine
end

