-- ==== Sys2Proof/Laws/Frames.lean ====
section
/-!
SUPPORT. What the frames of the two links hold, and that a frame which was sent whole reads as what was sent.
-/

namespace Sys2Proof.Machine

/-! ### The station bus (R82, R83, R84) -/

/-- A frame opens with its address, the only character with the mark bit set; no character of it is faulty. -/
theorem busCharacters_marks (a : Nat) (body : List Byte) :
    ∃ rest, busCharacters a body = ⟨BitVec.ofNat 8 a, true, true⟩ :: rest
      ∧ (∀ c ∈ rest, c.mark = false ∧ c.faulty false = false)
      ∧ rest.map (·.value) = lengthBodyCrc body :=
  ⟨_, rfl, by simp [BusChar.faulty], by simp [Function.comp_def]⟩

/-- A frame that was sent whole reads as its address and its body. -/
theorem readFrame_busCharacters (a : Nat) (body : List Byte) (ha : a < 256) (hb : body.length < 256) :
    readFrame (busCharacters a body) = some (a, body) := by
  have hn : (BitVec.ofNat 8 body.length).toNat = body.length := by simp; omega
  have ht : (body ++ leBytes 2 (crc16 (BitVec.ofNat 8 body.length :: body)).toNat).take body.length = body := List.take_left
  have hv : ∀ l : List Byte, (l.map fun b => (⟨b, false, true⟩ : BusChar)).map (·.value) = l := fun l => by simp [Function.comp_def]
  simp only [busCharacters, lengthBodyCrc, List.cons_append, List.map_cons, readFrame, hn, hv, ht, BusChar.faulty]
  simp; omega

/-- A character that stands on the bus whole is read as it was sent. -/
theorem charOf_bits (c : BusChar) : charOf c.bits = c := by
  obtain ⟨v, m, s⟩ := c
  have hv : ∀ v : BitVec 8, (charOf (BusChar.bits ⟨v, false, false⟩)).value = v := by decide +kernel
  exact congrArg (BusChar.mk · m s) (hv v)

/-- No frame is read out of characters the first of which is faulty (R82). -/
theorem readFrame_faulty_first (c : BusChar) (l : List BusChar) (h : c.faulty true = true) : readFrame (c :: l) = none := by
  cases l <;> simp [readFrame, h]

/-- What is late is a miss, whatever it holds (R84). -/
@[simp] theorem Plant.isMiss_late (p : Plant) (x : Exchange) (l : List BusBits) : p.isMiss x ⟨true, l⟩ = true := rfl

/-! ### The host link (R184, R187) -/

@[simp] theorem transmitterOf_nil : transmitterOf [] = .idle := rfl
@[simp] theorem transmitterOf_made (r : Reply) (l : List Reply) (h : r.made = true) : transmitterOf (r :: l) = .sending r.frame := by
  simp [transmitterOf, h]
@[simp] theorem transmitterOf_awaited (r : Reply) (l : List Reply) (h : r.made = false) : transmitterOf (r :: l) = .idle := by
  simp [transmitterOf, h]

/-- TXD is high unless the reply at the head of the queue is made. -/
theorem transmitterOf_high (l : List Reply) : (transmitterOf l).high = true ↔ ∀ r ∈ l.head?, r.made = false := by
  cases l with
  | nil => simp [Transmitter.high]
  | cons r l => cases h : r.made <;> simp [transmitterOf, h, Transmitter.high]

end Sys2Proof.Machine
end

