-- ==== Sys2Proof/Laws/Reading.lean ====
section
/-!
SUPPORT. Fields of a readout that may be absent, and what the two loops that fill a reply place in it: journal entries (R162) and table
entries (R191).
-/

namespace Sys2Proof.Machine

/-! ### A field that may be absent is its value or all bits one (Table 11-1) -/

theorem fOptByte_eq (o : Option Nat) : fOptByte o = leBytes 1 (o.getD 255) := by cases o <;> rfl
theorem fOptHalf_eq (o : Option Nat) : fOptHalf o = leBytes 2 (o.getD 65535) := by cases o <;> rfl
theorem fOptWord_eq (o : Option Nat) : fOptWord o = leBytes 4 (o.getD 4294967295) := by cases o <;> rfl
theorem fCount_eq (o : Option Count24) : fCount o = leBytes 3 ((o.map (·.toNat)).getD 16777215) := by cases o <;> rfl
theorem fKnown_eq {α : Type} (num : α → Nat) (o : Option α) : fKnown num o = leBytes 1 ((o.map num).getD 255) := by cases o <;> rfl
theorem fOptTemp_eq (o : Option Int) : fOptTemp o = leBytes 2 (match o with | none => 32767 | some x => (x % 65536).toNat) := by
  cases o <;> rfl

/-! ### The two loops -/

/-- Entries behind the first of a reply are read whole and in order; reading stops at the count, at the end, or before the first that
does not fit. -/
theorem readEntries_whole (l : List Entry) : ∀ count room : Nat,
    let r := readEntries l count room 0 false
    r.1 = (l.take r.2.1).map Entry.bytes ∧ r.2.2 = 0 ∧ r.2.1 ≤ count ∧ r.2.1 ≤ l.length ∧ r.1.flatten.length ≤ room
      ∧ (r.2.1 = count ∨ r.2.1 = l.length ∨ ∃ e, l[r.2.1]? = some e ∧ room < r.1.flatten.length + e.bytes.length) := by
  induction l with
  | nil => intro count room; simp [readEntries]
  | cons e rest ih =>
    intro count room
    cases count with
    | zero => simp [readEntries]
    | succ n =>
      by_cases h : e.bytes.length ≤ room
      · have := ih n (room - e.bytes.length)
        simp only [readEntries, h, decide_true, Bool.and_self, if_true]
        obtain ⟨h1, h2, h3, h4, h5, h6⟩ := this
        refine ⟨by simp [← h1], h2, by simpa using h3, by simpa using h4, by simp only [List.flatten_cons, List.length_append]; omega, ?_⟩
        rcases h6 with h6 | h6 | ⟨x, hx, hlt⟩
        · exact .inl (by simp [h6])
        · exact .inr (.inl (by simp [h6]))
        · exact .inr (.inr ⟨x, by simpa using hx, by simp only [List.flatten_cons, List.length_append]; omega⟩)
      · simp only [readEntries, h, decide_false, Bool.and_false, Bool.false_eq_true, if_false]
        exact ⟨by simp, by simp, by omega, by omega, by simp, .inr (.inr ⟨e, by simp, by simp; omega⟩)⟩

/-- The table entries of a list of indices are placed in order, those not wanted passed over; placing stops when the count is met, at
the end, or before the first that does not fit, which heads the indices not passed. -/
theorem State.placeEntries_whole (s : State) (t : TableName) (step : ReadStep) (l : List Nat) : ∀ left room : Nat,
    let wanted := l.filter fun i => decide (step = .every ∨ s.plant.inUse t i = true)
    let r := s.placeEntries t step l left room
    ∃ n, r.1 = (wanted.take n).map (s.tableEntry t) ∧ r.2.1 = left - n ∧ n ≤ left ∧ n ≤ wanted.length ∧ r.1.flatten.length ≤ room
      ∧ (n = left ∨ (n = wanted.length ∧ r.2.2 = [])
          ∨ ∃ i, wanted[n]? = some i ∧ r.2.2.head? = some i ∧ room < r.1.flatten.length + (s.tableEntry t i).length) := by
  induction l with
  | nil => intro left room; exact ⟨0, by simp [State.placeEntries]⟩
  | cons i rest ih =>
    intro left room
    by_cases hl : left = 0
    · exact ⟨0, by simp [State.placeEntries, hl]⟩
    · by_cases hw : step = .every ∨ s.plant.inUse t i = true
      · have hb : (step == .inUse && !s.plant.inUse t i) = false := by
          rcases hw with h | h <;> simp [h]
        by_cases hf : (s.tableEntry t i).length ≤ room
        · obtain ⟨n, h1, h2, h3, h4, h5, h6⟩ := ih (left - 1) (room - (s.tableEntry t i).length)
          refine ⟨n + 1, ?_⟩
          simp only [State.placeEntries, hl, hb, hf, if_true, if_false, Bool.false_eq_true, List.filter_cons, hw, decide_true]
          refine ⟨by simp [h1], by rw [h2, Nat.sub_sub, Nat.add_comm 1 n], by omega, by simpa using h4,
            by simp only [List.flatten_cons, List.length_append]; omega, ?_⟩
          rcases h6 with h6 | ⟨h6, h7⟩ | ⟨x, hx, hh, hlt⟩
          · exact .inl (by omega)
          · exact .inr (.inl ⟨by simp [h6], h7⟩)
          · exact .inr (.inr ⟨x, by simpa using hx, hh, by simp only [List.flatten_cons, List.length_append]; omega⟩)
        · refine ⟨0, ?_⟩
          simp only [State.placeEntries, hl, hb, hf, if_false, Bool.false_eq_true, List.filter_cons, hw, decide_true, if_true]
          exact ⟨by simp, by omega, by omega, by omega, by simp, .inr (.inr ⟨i, by simp, by simp, by simp; omega⟩)⟩
      · have hb : (step == .inUse && !s.plant.inUse t i) = true := by
          push Not at hw
          cases step <;> simp_all
        obtain ⟨n, h⟩ := ih left room
        refine ⟨n, ?_⟩
        simpa only [State.placeEntries, hl, hb, if_true, if_false, List.filter_cons, hw, decide_false, Bool.false_eq_true] using h

end Sys2Proof.Machine
end

