-- ==== Sys2Proof/Laws/RequestBytes.lean ====
section
/-!
SUPPORT. Fields of a request: what was laid out little-endian, in its width, reads as what it was; and the bytes of a body as the
receiver takes them.
-/

namespace Sys2Proof.Machine

@[simp] theorem leBytes_length (w : Nat) : ∀ n, (leBytes w n).length = w := by
  induction w with
  | zero => intro n; rfl
  | succ w ih => intro n; simp [leBytes, ih]

/-- Bytes of a number that fits them stand for that number. -/
theorem leNat_leBytes (w : Nat) : ∀ n, n < 256 ^ w → leNat (leBytes w n) = n := by
  induction w with
  | zero => intro n h; simp [leBytes, leNat] at *; omega
  | succ w ih =>
    intro n h
    simp only [leBytes, leNat, BitVec.toNat_ofNat]
    rw [ih (n / 256) (by rw [Nat.pow_succ] at h; omega)]
    omega

/-- Bytes stand for a number below 256 to the power of their count. -/
theorem leNat_lt (l : List Byte) : leNat l < 256 ^ l.length := by
  induction l with
  | nil => simp [leNat]
  | cons b l ih => have := b.isLt; simp only [leNat, List.length_cons, Nat.pow_succ]; omega

/-- The number that bytes stand for is laid out as those bytes. -/
theorem leBytes_leNat (l : List Byte) : leBytes l.length (leNat l) = l := by
  induction l with
  | nil => rfl
  | cons b l ih =>
    have h : (b.toNat + 256 * leNat l) / 256 = leNat l := by have := b.isLt; omega
    simp only [List.length_cons, leNat, leBytes, h, ih]
    congr 1
    apply BitVec.eq_of_toNat_eq
    have := b.isLt
    simp only [BitVec.toNat_ofNat]; omega

@[simp] theorem slices_nil (l : List Byte) : slices [] l = [] := rfl
theorem slices_cons (w : Nat) (ws : List Nat) (l : List Byte) : slices (w :: ws) l = l.take w :: slices ws (l.drop w) := rfl

/-- The first piece is a field that has the first width. -/
theorem slices_append (w : Nat) (ws : List Nat) (a l : List Byte) (h : a.length = w) : slices (w :: ws) (a ++ l) = a :: slices ws l := by
  subst h; simp [slices]

/-- Pieces of bytes laid out at their widths are those bytes. -/
theorem slices_flatten (ws : List Nat) : ∀ f : List (List Byte), f.map List.length = ws → slices ws f.flatten = f := by
  induction ws with
  | nil => intro f h; simpa [slices] using h.symm
  | cons w ws ih =>
    intro f h
    match f, h with
    | [], h => simp at h
    | a :: f, h =>
      simp only [List.map_cons, List.cons.injEq] at h
      rw [List.flatten_cons, slices_append w ws a _ h.1, ih f h.2]

/-- The pieces together are the bytes they were cut from. -/
theorem flatten_slices (ws : List Nat) : ∀ l : List Byte, l.length = ws.sum → (slices ws l).flatten = l := by
  induction ws with
  | nil => intro l h; simpa [slices] using (List.eq_nil_of_length_eq_zero (by simpa using h)).symm
  | cons w ws ih =>
    intro l h
    have : (l.drop w).length = ws.sum := by rw [List.sum_cons] at h; simp; omega
    simp [slices, ih _ this]

/-- The last field of a layout. -/
theorem slices_last (w : Nat) (a : List Byte) (h : a.length = w) : slices [w] a = [a] := by
  simp [slices, List.take_of_length_le h.le]

@[simp] theorem tempBytes_length (t : Option Int) : (tempBytes t).length = 2 := by simp [tempBytes]
@[simp] theorem enumByte_length {α : Type} (num : α → Nat) (e : EnumField α) : (enumByte num e).length = 1 := by simp [enumByte]
@[simp] theorem stepBytes_length (x : StepField) : (stepBytes x).length = 13 := by simp [stepBytes]

theorem leNat_byte {n : Nat} (h : n < 256) : leNat (leBytes 1 n) = n := leNat_leBytes 1 n h
theorem leNat_half {n : Nat} (h : n < 65536) : leNat (leBytes 2 n) = n := leNat_leBytes 2 n h
theorem leNat_word {n : Nat} (h : n < 4294967296) : leNat (leBytes 4 n) = n := leNat_leBytes 4 n h

/-! Each reader, over the field of a layout that it reads. -/

theorem Fields.word_of {f : Fields} {k : Nat} (w : Word32) (h : f.bytes k = leBytes 4 w.toNat) : f.word k = w := by
  rw [Fields.word, Fields.num, h, leNat_word w.isLt]; simp

theorem Fields.optByte_of {f : Fields} {k : Nat} (t : Option Nat) (h : f.bytes k = leBytes 1 (t.getD 255))
    (ht : WellFormed.optional 8 t = true) : f.opt k = t := by
  rw [Fields.opt, Fields.num, h]
  cases t with
  | none => rfl
  | some n => simp only [WellFormed.optional, decide_eq_true_eq] at ht; simp [leNat_byte (show n < 256 by omega)]; omega

theorem Fields.optHalf_of {f : Fields} {k : Nat} (t : Option Nat) (h : f.bytes k = leBytes 2 (t.getD 65535))
    (ht : WellFormed.optional 16 t = true) : f.opt k = t := by
  rw [Fields.opt, Fields.num, h]
  cases t with
  | none => rfl
  | some n => simp only [WellFormed.optional, decide_eq_true_eq] at ht; simp [leNat_half (show n < 65536 by omega)]; omega

theorem Fields.optWord_of {f : Fields} {k : Nat} (t : Option Nat) (h : f.bytes k = leBytes 4 (t.getD 4294967295))
    (ht : WellFormed.optional 32 t = true) : f.opt k = t := by
  rw [Fields.opt, Fields.num, h]
  cases t with
  | none => rfl
  | some n => simp only [WellFormed.optional, decide_eq_true_eq] at ht; simp [leNat_word (show n < 4294967296 by omega)]; omega

theorem Fields.temp_of {f : Fields} {k : Nat} (t : Option Int) (h : f.bytes k = tempBytes t) (ht : WellFormed.optTemp t = true) :
    f.temp k = t := by
  rw [Fields.temp, Fields.num, h]
  cases t with
  | none => rfl
  | some v =>
    simp only [WellFormed.optTemp, WellFormed.temp, Bool.and_eq_true, decide_eq_true_eq] at ht
    have hn : leNat (tempBytes (some v)) = (v % 65536).toNat :=
      leNat_half (show (v % 65536).toNat < 65536 by omega)
    rw [hn]
    rw [if_neg (by omega)]; refine congrArg some ?_; split_ifs <;> omega

theorem Fields.enum_of {α : Type} {f : Fields} {k : Nat} (values : List α) (num : α → Nat) (e : EnumField α) (h : f.bytes k = enumByte num e)
    (hv : ∀ a, values[num a]? = some a) (hl : values.length ≤ 255) (he : WellFormed.enum values.length e = true) :
    f.enum values k = e := by
  rw [Fields.enum, Fields.num, h]
  cases e with
  | val a =>
    have := (List.getElem?_eq_some_iff.mp (hv a)).1
    simp [enumByte, leNat_byte (show num a < 256 by omega), enumField, hv]
  | absent => simp [enumByte, leNat_byte, enumField, List.getElem?_eq_none hl]
  | bad n =>
    simp only [WellFormed.enum, Bool.and_eq_true, decide_eq_true_eq] at he
    simp [enumByte, leNat_byte (show n < 256 by omega), enumField, List.getElem?_eq_none he.1, show n ≠ 255 by omega]

/-- A name that does not end in a space is read without the spaces behind it. -/
theorem Fields.name_of {f : Fields} {k : Nat} (name : List Byte) (h : f.bytes k = name ++ List.replicate (12 - name.length) 0x20#8)
    (hs : name.getLast? ≠ some 0x20#8) : f.name k = name := by
  rw [Fields.name, h, List.reverse_append, List.reverse_replicate]
  have hd : ∀ n, (List.replicate n 0x20#8 ++ name.reverse).dropWhile (fun b => b == 0x20#8) = name.reverse := by
    intro n
    induction n with
    | zero =>
      cases hr : name.reverse with
      | nil => rfl
      | cons a l =>
        have ha : name.getLast? = some a := by rw [← List.head?_reverse, hr]; rfl
        have : (a == 0x20#8) = false := by simpa using fun e => hs (by rw [ha, e])
        simp [this]
    | succ n ih => simpa [List.replicate_succ] using ih
  rw [hd, List.reverse_reverse]

/-- A step item reads as the step it was laid out from. -/
theorem readStepField_stepBytes (x : StepField) (h : WellFormed.stepField x = true) : readStepField (stepBytes x) = x := by
  obtain ⟨a, m, d, f, t, l, o, c⟩ := x
  simp only [WellFormed.stepField, Bool.and_eq_true] at h
  obtain ⟨⟨⟨⟨⟨⟨⟨ha, hm⟩, hd⟩, hf⟩, ht⟩, hl⟩, ho⟩, hc⟩ := h
  simp only [stepBytes, readStepField, stepWidths, List.append_assoc]
  simp only [slices_append, slices_last, leBytes_length, enumByte_length]
  rw [Fields.enum_of actionValues _ a rfl (by intro a; cases a <;> rfl) (by decide) ha,
    Fields.enum_of mediumValues _ m rfl (by intro a; cases a <;> rfl) (by decide) hm,
    Fields.enum_of onFailValues _ o rfl (by intro a; cases a <;> rfl) (by decide) ho,
    Fields.optHalf_of d rfl hd, Fields.optByte_of f rfl hf, Fields.optWord_of t rfl ht, Fields.optHalf_of l rfl hl,
    Fields.optByte_of c rfl hc]

/-- Step items laid out one behind another read as those steps. -/
theorem readSteps_stepBytes (l : List StepField) (hl : l.length ≤ 18) (h : l.all WellFormed.stepField = true) :
    readSteps l.length (l.flatMap stepBytes) = some l := by
  have hs : slices (List.replicate l.length 13) (l.flatMap stepBytes) = l.map stepBytes := by
    rw [List.flatMap_def]
    exact slices_flatten _ _ (List.eq_replicate_iff.mpr ⟨by simp, by simp⟩)
  rw [readSteps, if_neg (by omega), show min 18 l.length = l.length by omega, hs, List.map_map]
  refine congrArg some ((List.map_congr_left fun x hx => ?_).trans (List.map_id l))
  exact readStepField_stepBytes x (List.all_eq_true.mp h x hx)

/-- Bytes of a list of numbers below 256 are those numbers. -/
theorem bytes_of_numbers (l : List Nat) (h : l.all WellFormed.byte = true) : (l.flatMap (leBytes 1)).map (·.toNat) = l := by
  induction l with
  | nil => rfl
  | cons a l ih =>
    simp only [List.all_cons, Bool.and_eq_true, WellFormed.byte, decide_eq_true_eq] at h
    rw [List.flatMap_cons, List.map_append, ih h.2]
    simp [leBytes]; omega

/-- Bytes without a framing error are taken one by one until the body is whole (R185). -/
theorem Receiver.take_body (len : RxByte) (b : List RxByte) : ∀ a : List RxByte, b ≠ [] → (∀ x ∈ b, x.framing = false) →
    a.length + b.length = len.value.toNat →
    b.foldl (fun (r : Receiver) x => (r.take x).1) (Receiver.body len a) = Receiver.crc len (a ++ b) none := by
  induction b with
  | nil => intro a h; exact absurd rfl h
  | cons x xs ih =>
    intro a _ hx hs
    rw [List.length_cons] at hs
    by_cases hxs : xs = []
    · subst hxs
      simp only [List.length_nil, Nat.zero_add] at hs
      simp [Receiver.take, hx x (by simp), show ¬ a.length + 1 < len.value.toNat by omega]
    · have hpos : 0 < xs.length := List.length_pos_iff.mpr hxs
      have ht : ((Receiver.body len a).take x).1 = .body len (a ++ [x]) := by
        simp [Receiver.take, hx x (by simp), show a.length + 1 < len.value.toNat by omega]
      rw [List.foldl_cons, ht, ih (a ++ [x]) hxs (fun y hy => hx y (by simp [hy])) (by simp; omega), List.append_assoc, List.singleton_append]

/-- What the receiver has taken is what its phases make of the bytes (R185). -/
theorem Hl.foldl_takeByte_receiver (bytes : List RxByte) : ∀ l : Hl,
    (bytes.foldl Hl.takeByte l).receiver = bytes.foldl (fun (r : Receiver) x => (r.take x).1) l.receiver := by
  induction bytes with
  | nil => intro l; rfl
  | cons x bytes ih => intro l; simp [ih, Hl.takeByte]

end Sys2Proof.Machine
end

