-- ==== Sys2Proof/Laws/Requests.lean ====
section
/-!
SUPPORT. What the shared operation that takes a request can do, and what the shapes of the other arrivals come to.
-/

namespace Sys2Proof.Machine

/-! ### Checks -/

/-- A request none of whose checks fails is answered by its owner. -/
theorem orFail_pass (l : List Check) (a : Answer) (h : ∀ c ∈ l, c.1 = false) : orFail l a = a := by
  induction l with
  | nil => rfl
  | cons c l ih =>
    obtain ⟨f, r, d⟩ := c
    have hf : f = false := h (f, r, d) (by simp)
    subst hf
    simp only [orFail, Bool.false_eq_true, if_false]
    exact ih fun x hx => h x (by simp [hx])

/-- The first check of a list fails. -/
theorem orFail_head (r : Result) (d : Nat) (l : List Check) (a : Answer) : orFail ((true, r, d) :: l) a = .refuse r d [] := rfl

/-- A check that does not fail is passed over. -/
@[simp] theorem orFail_skip (c : Result × Nat) (l : List Check) (a : Answer) : orFail ((false, c) :: l) a = orFail l a := rfl

/-! ### HL's own updates -/

@[simp] theorem Hl.accepted_replies (l : Hl) (h : ReqHdr) : (l.accepted h).replies = l.replies := rfl
@[simp] theorem Hl.accepted_rxdLow (l : Hl) (h : ReqHdr) : (l.accepted h).rxdLow = l.rxdLow := rfl
@[simp] theorem Hl.accepted_notices (l : Hl) (h : ReqHdr) : (l.accepted h).notices = l.notices := rfl
@[simp] theorem Hl.accepted_overflow (l : Hl) (h : ReqHdr) : (l.accepted h).overflow = l.overflow := rfl
@[simp] theorem Hl.accepted_attn (l : Hl) (h : ReqHdr) : (l.accepted h).attn = l.attn := rfl
@[simp] theorem Hl.accepted_cursor (l : Hl) (h : ReqHdr) : (l.accepted h).cursor = l.cursor := rfl
@[simp] theorem Hl.accepted_rate (l : Hl) (h : ReqHdr) : (l.accepted h).rate = l.rate := rfl
@[simp] theorem Hl.accepted_transmitter (l : Hl) (h : ReqHdr) : (l.accepted h).transmitter = l.transmitter := rfl

/-- The transmitter's move leaves every other field of HL. -/
@[simp] theorem Hl.transmit_frame (l : Hl) :
    l.transmit.rate = l.rate ∧ l.transmit.receiver = l.receiver ∧ l.transmit.rxdLow = l.rxdLow ∧ l.transmit.counts = l.counts
      ∧ l.transmit.replies = l.replies ∧ l.transmit.notices = l.notices ∧ l.transmit.overflow = l.overflow
      ∧ l.transmit.attn = l.attn ∧ l.transmit.cursor = l.cursor := ⟨rfl, rfl, rfl, rfl, rfl, rfl, rfl, rfl, rfl⟩
@[simp] theorem Hl.transmit_transmitter (l : Hl) : l.transmit.transmitter = transmitterOf l.replies := rfl

/-- A link reset discards the replies and leaves TXD high, whatever the transmitter was sending (R184, R186). -/
theorem Hl.linkReset_txd (l : Hl) : l.linkReset.replies = [] ∧ l.linkReset.transmitter = transmitterOf l.linkReset.replies
    ∧ l.linkReset.transmitter.high = true := ⟨rfl, rfl, rfl⟩

/-- HL's taking of a notice leaves all but the notice queue, its flag and ATTN as it is. -/
@[simp] theorem Hl.take_frame (l : Hl) (n : Notice) :
    (l.take n).rate = l.rate ∧ (l.take n).receiver = l.receiver ∧ (l.take n).rxdLow = l.rxdLow ∧ (l.take n).counts = l.counts
      ∧ (l.take n).replies = l.replies ∧ (l.take n).transmitter = l.transmitter ∧ (l.take n).cursor = l.cursor := by
  unfold Hl.take; split <;> simp

/-- With no notice raised, delivery changes nothing. -/
theorem deliver_quiet (s : State) (h : s.plant.raised = []) : deliver s = s := by
  obtain ⟨hl, ⟨msc, sbc, lm, tkm, pe, cc, cs, au, raised⟩, pending⟩ := s
  simp only at h
  subst h
  rfl

/-- Delivery leaves every block of the plant as it is, and nothing raised. -/
@[simp] theorem deliver_plant (s : State) : (deliver s).plant = { s.plant with raised := [] } := rfl
@[simp] theorem deliver_pending (s : State) : (deliver s).pending = s.pending := rfl
@[simp] theorem deliver_hl (s : State) : (deliver s).hl = s.plant.raised.foldl Hl.take s.hl := rfl

/-! ### Requests -/

/-- With RXD held low nothing is taken (R186). -/
theorem takeRequest_low (k : RequestKind) (h : ReqHdr) (body : State → Answer) (s : State) (hr : s.hl.rxdLow = true) :
    takeRequest k h body s = s := by simp [takeRequest, hr]

/-- A frame that finds the reply queue full is an overrun (R187). -/
theorem takeRequest_full (k : RequestKind) (h : ReqHdr) (body : State → Answer) (s : State) (hr : s.hl.rxdLow = false)
    (hf : Config.replyCapacity ≤ s.hl.replies.length) :
    takeRequest k h body s = { s with hl := (s.hl.accepted h).overrun } := by
  simp [takeRequest, hr, Hl.repliesFull, hf]

/-- A request that HL can take is judged, answered and delivered (R187, R188). -/
theorem takeRequest_taken (k : RequestKind) (h : ReqHdr) (body : State → Answer) (s : State) (hr : LinkReady s) :
    takeRequest k h body s =
      deliver (({ s with hl := s.hl.accepted h } : State).answer k.num h.tag (judge k h { s with hl := s.hl.accepted h } body)) := by
  have : ¬ Config.replyCapacity ≤ s.hl.replies.length := by have := hr.2; omega
  simp [takeRequest, hr.1, Hl.repliesFull, this]

/-- The checks of R188 before the owner's own pass for a request that fits its layout and the mode. -/
theorem judge_ready (k : RequestKind) (h : ReqHdr) (s : State) (body : State → Answer) (hl : h.length = none)
    (hm : k.takenIn s.plant.live = true) : judge k h s body = body s := by
  unfold judge
  apply orFail_pass
  intro c hc
  unfold RequestKind.takenIn at hm
  simp only [misfit, hl, modeCheck, List.mem_cons] at hc
  rcases hc with rfl | hc
  · rfl
  · split at hc <;> simp_all

/-- A request that reaches its owner is answered by it (R187, R188). -/
theorem request_ready (k : RequestKind) (h : ReqHdr) (body : State → Answer) (s : State) (hr : Ready k h s) :
    request k h body s =
      .next (deliver (({ s with hl := s.hl.accepted h } : State).answer k.num h.tag (body { s with hl := s.hl.accepted h }))) := by
  have hj := judge_ready k h { s with hl := s.hl.accepted h } body hr.2.1 hr.2.2.1
  simp only [request, takeRequest_taken k h body s hr.1, hj]

/-- A request among the 44 is taken by the shared operation. -/
theorem exec_request (c : Instr) (k : RequestKind) (h : ReqHdr) (hc : requestOf c = some (k, h)) (s : State) :
    ∃ body, exec c s = request k h body s := by
  cases c <;> simp only [requestOf, Option.some.injEq, Prod.mk.injEq, reduceCtorEq] at hc <;>
    (obtain ⟨rfl, rfl⟩ := hc; exact ⟨_, rfl⟩)

/-- A request that its owner carries out. -/
theorem request_done (k : RequestKind) (h : ReqHdr) (body : State → Answer) (s : State) (p : Plant) (data : List Byte)
    (hr : Ready k h s) (hb : body { s with hl := s.hl.accepted h } = done { s with hl := s.hl.accepted h } p data) :
    request k h body s = .next (s.answered k h data p) := by
  have hj := judge_ready k h { s with hl := s.hl.accepted h } body hr.2.1 hr.2.2.1
  simp only [request, takeRequest_taken k h body s hr.1, hj, hb]
  rfl

/-- A request that its owner refuses. -/
theorem request_refused (k : RequestKind) (h : ReqHdr) (body : State → Answer) (s : State) (r : Result) (d : Nat) (data : List Byte)
    (hr : Ready k h s) (hb : body { s with hl := s.hl.accepted h } = .refuse r d data) :
    request k h body s = .next (s.declined k h r d data) := by
  have hj := judge_ready k h { s with hl := s.hl.accepted h } body hr.2.1 hr.2.2.1
  simp only [request, takeRequest_taken k h body s hr.1, hj, hb]
  rfl

/-- A request whose owner checks it and then carries it out. -/
theorem request_checked (k : RequestKind) (h : ReqHdr) (body : State → Answer) (s : State) (l : List Check) (p : Plant)
    (data : List Byte) (hr : Ready k h s)
    (hb : body { s with hl := s.hl.accepted h } = orFail l (done { s with hl := s.hl.accepted h } p data)) :
    request k h body s = .next (s.checked k h l (s.answered k h data p)) := by
  have key : ∀ l : List Check, ∀ body' : State → Answer,
      body' { s with hl := s.hl.accepted h } = orFail l (done { s with hl := s.hl.accepted h } p data) →
      request k h body' s = .next (s.checked k h l (s.answered k h data p)) := by
    intro l
    induction l with
    | nil => intro body' hb; exact request_done k h body' s p data hr hb
    | cons c l ih =>
      intro body' hb
      obtain ⟨f, r, d⟩ := c
      cases f
      · simp only [State.checked, Bool.false_eq_true, if_false]; exact ih body' hb
      · simp only [State.checked, if_true]; exact request_refused k h body' s r d [] hr hb
  exact key l body hb

/-! ### Other arrivals -/

theorem event_eq (f : Plant → Plant) (s : State) : event f s = .next (s.arrived (f s.plant)) := rfl

theorem eventIf_true (f : Plant → Plant) (s : State) : eventIf true f s = .next (s.arrived (f s.plant)) := rfl

theorem eventIf_false (f : Plant → Plant) (s : State) : eventIf false f s = .next s := rfl

theorem expiry_some (d : Nat) (f : Plant → Plant) (s : State) : expiry (some d) f s = .next (s.arrived (f (s.plant.reach d))) := rfl

theorem expiry_none (f : Plant → Plant) (s : State) : expiry none f s = .next s := rfl

/-! ### CS's judgements -/

/-- CS with nothing left to judge changes nothing. -/
theorem csSettle_settled (p : Plant) (h : p.Settled) : p.csSettle = p := by
  unfold Plant.csSettle
  split
  · rfl
  · show Plant.csLoop 200 p = p
    unfold Plant.csLoop
    rw [h]

/-- Without a job CS has nothing to judge. -/
theorem settled_of_no_job (p : Plant) (h : p.cs.jobs = []) : p.Settled := by
  unfold Plant.Settled Plant.csNext
  simp [h]

/-! ### Frames -/

/-- A frame, block by block. -/
theorem Plant.onlyIn_nil (p q : Plant) (h1 : q.msc = p.msc) (h2 : q.sbc = p.sbc) (h3 : q.lm = p.lm) (h4 : q.tkm = p.tkm)
    (h5 : q.pe = p.pe) (h6 : q.cc = p.cc) (h7 : q.cs = p.cs) (h8 : q.au = p.au) : p.OnlyIn [] q := by
  intro b _
  cases b <;> assumption

end Sys2Proof.Machine
end

