-- ==== Sys2Proof/Laws/TapNotices.lean ====
section
/-!
SUPPORT. A change of a tap's state raises its TAP_STATE notice (R42): what each operation of the plant keeps of it.
-/

namespace Sys2Proof.Machine

/-- IDLE, POURING and ENDING as one: a change among them raises no TAP_STATE notice (R42). -/
def TapState.shown (s : TapState) : TapState := if s.quiet then .idle else s

/-- Every notice raised in `p` stands in `q` too, in order, and with those raised since there is, for each tap whose state has changed
otherwise than among IDLE, POURING and ENDING, a TAP_STATE notice that shows its state (R42). -/
def Plant.TapNoted (p q : Plant) : Prop :=
  ∃ l, q.raised = p.raised ++ l ∧ ∀ i, (p.tap i).state.shown ≠ (q.tap i).state.shown →
    ∃ n ∈ l, n.kind = .tapState ∧ n.subject = i ∧ ∃ st : TapState, st.shown = (q.tap i).state.shown ∧ n.first = st.num

@[simp] theorem Plant.TapNoted.refl (p : Plant) : p.TapNoted p := ⟨[], by simp, fun _ h => absurd rfl h⟩

theorem Plant.TapNoted.trans {p q r : Plant} (h : p.TapNoted q) (k : q.TapNoted r) : p.TapNoted r := by
  obtain ⟨l, hl, ht⟩ := h
  obtain ⟨m, hm, hu⟩ := k
  refine ⟨l ++ m, by rw [hm, hl, List.append_assoc], fun i hi => ?_⟩
  by_cases hq : (q.tap i).state.shown = (r.tap i).state.shown
  · obtain ⟨n, hn, h1, h2, st, h3, h4⟩ := ht i (by rwa [hq])
    exact ⟨n, by simp [hn], h1, h2, st, by rw [h3, hq], h4⟩
  · obtain ⟨n, hn, h⟩ := hu i hq
    exact ⟨n, by simp [hn], h⟩

/-- Taps that keep their states need no notice. -/
theorem Plant.TapNoted.of_states {w p q : Plant} (h : w.TapNoted p) (ht : ∀ i, (q.tap i).state = (p.tap i).state)
    (hr : ∃ l, q.raised = p.raised ++ l) : w.TapNoted q := by
  obtain ⟨l, hl⟩ := hr
  exact h.trans ⟨l, hl, fun i hi => absurd (by rw [ht]) hi⟩

/-- An operation that leaves PE and the notices as they are. -/
theorem Plant.TapNoted.same {w p q : Plant} (h : w.TapNoted p) (hp : q.pe = p.pe) (hr : q.raised = p.raised) : w.TapNoted q :=
  h.of_states (fun i => by rw [Plant.tap, Plant.tap, hp]) ⟨[], by simp [hr]⟩

/-- A fold keeps what each of its steps keeps. -/
@[simp] theorem Plant.TapNoted.foldl {α : Type} {w p : Plant} (h : w.TapNoted p) (f : Plant → α → Plant)
    (hf : ∀ q a, w.TapNoted q → w.TapNoted (f q a)) (l : List α) : w.TapNoted (l.foldl f p) := by
  induction l generalizing p with
  | nil => exact h
  | cons a l ih => exact ih (hf p a h)

@[simp] theorem Plant.TapNoted.ite {w p q : Plant} {c : Prop} [Decidable c] (h : w.TapNoted p) (k : w.TapNoted q) :
    w.TapNoted (if c then p else q) := by split <;> assumption

@[simp] theorem Plant.noted_msc {w p : Plant} (h : w.TapNoted p) (x : Msc) : w.TapNoted { p with msc := x } := h.same rfl rfl
@[simp] theorem Plant.noted_sbc {w p : Plant} (h : w.TapNoted p) (x : Sbc) : w.TapNoted { p with sbc := x } := h.same rfl rfl
@[simp] theorem Plant.noted_lm {w p : Plant} (h : w.TapNoted p) (x : Lm) : w.TapNoted { p with lm := x } := h.same rfl rfl
@[simp] theorem Plant.noted_tkm {w p : Plant} (h : w.TapNoted p) (x : Tkm) : w.TapNoted { p with tkm := x } := h.same rfl rfl
@[simp] theorem Plant.noted_cc {w p : Plant} (h : w.TapNoted p) (x : Cc) : w.TapNoted { p with cc := x } := h.same rfl rfl
@[simp] theorem Plant.noted_cs {w p : Plant} (h : w.TapNoted p) (x : Cs) : w.TapNoted { p with cs := x } := h.same rfl rfl
@[simp] theorem Plant.noted_au {w p : Plant} (h : w.TapNoted p) (x : Au) : w.TapNoted { p with au := x } := h.same rfl rfl

/-- A change of PE that leaves the taps as they are. -/
@[simp] theorem Plant.noted_pe {w p : Plant} (h : w.TapNoted p) (x : Pe) (hx : x.taps = p.pe.taps) : w.TapNoted { p with pe := x } :=
  h.of_states (fun i => by simp [Plant.tap, hx]) ⟨[], by simp⟩

/-! ### The tap -/

theorem Plant.setTap_noted {w p : Plant} (h : w.TapNoted p) (i : Nat) (v : Tap) (hv : v.state = (p.tap i).state) :
    w.TapNoted (p.setTap i v) := by
  refine h.of_states (fun j => ?_) ⟨[], by simp⟩
  rw [Plant.tap_setTap]
  split
  · next e => rw [hv, e.1]
  · rfl

@[simp] theorem Plant.modTap_noted {w p : Plant} (h : w.TapNoted p) (i : Nat) (f : Tap → Tap) (hf : ∀ t, (f t).state = t.state) :
    w.TapNoted (p.modTap i f) := Plant.setTap_noted h i _ (hf _)

@[simp] theorem Plant.raise_noted {w p : Plant} (h : w.TapNoted p) (k : NoticeKind) (a b c : Nat) : w.TapNoted (p.raise k a b c) :=
  h.of_states (fun _ => rfl) ⟨_, rfl⟩

theorem Plant.raise_tap (p : Plant) (k : NoticeKind) (a b c j : Nat) : (p.raise k a b c).tap j = p.tap j := rfl

@[simp] theorem Plant.refreshTap_noted {w p : Plant} (h : w.TapNoted p) (i : Nat) : w.TapNoted (p.refreshTap i) := by
  refine h.trans ?_
  unfold Plant.refreshTap Plant.raiseTapState
  generalize p.tapOutputs (p.tapSettled (p.tap i)) = u
  simp only
  split
  · next hs =>
    refine ⟨[], by simp, fun j hj => absurd ?_ hj⟩
    rw [Plant.tap_setTap]
    split
    · next e =>
      rw [← e.1]
      simp only [Bool.or_eq_true, beq_iff_eq, Bool.and_eq_true] at hs
      rcases hs with hs | ⟨h1, h2⟩
      · rw [hs]
      · simp [TapState.shown, h1, h2]
    · rfl
  · refine ⟨_, rfl, fun j hj => ⟨_, List.mem_singleton_self _, rfl, ?_⟩⟩
    rw [Plant.raise_tap, Plant.tap_setTap] at hj
    rw [Plant.raise_tap, Plant.tap_setTap]
    by_cases e : i = j ∧ i < 96
    · rw [if_pos e]
      exact ⟨e.1, _, rfl, rfl⟩
    · rw [if_neg e] at hj
      exact absurd rfl hj

/-! ### Ops -/

@[simp] theorem Plant.setStation_noted {w p : Plant} (h : w.TapNoted p) (a : Nat) (v : Station) :
    w.TapNoted (p.setStation a v) := h.same (by simp) (by simp)
@[simp] theorem Plant.setProduct_noted {w p : Plant} (h : w.TapNoted p) (i : Nat) (v : Option Product) :
    w.TapNoted (p.setProduct i v) := h.same (by simp) (by simp)
@[simp] theorem Plant.setSource_noted {w p : Plant} (h : w.TapNoted p) (i : Nat) (v : Source) :
    w.TapNoted (p.setSource i v) := h.same (by simp) (by simp)
@[simp] theorem Plant.setLine_noted {w p : Plant} (h : w.TapNoted p) (i : Nat) (v : Line) :
    w.TapNoted (p.setLine i v) := h.same (by simp) (by simp)
@[simp] theorem Plant.modLine_noted {w p : Plant} (h : w.TapNoted p) (i : Nat) (f : Line → Line) :
    w.TapNoted (p.modLine i f) := h.same (by simp) (by simp)
@[simp] theorem Plant.setTicket_noted {w p : Plant} (h : w.TapNoted p) (i : Nat) (v : Option Ticket) :
    w.TapNoted (p.setTicket i v) := h.same (by simp) (by simp)
@[simp] theorem Plant.setQueue_noted {w p : Plant} (h : w.TapNoted p) (a : Nat) (q : List Nat) :
    w.TapNoted (p.setQueue a q) := h.same (by simp) (by simp)
@[simp] theorem Plant.setLineView_noted {w p : Plant} (h : w.TapNoted p) (l : Nat) (v : LineView) : w.TapNoted (p.setLineView l v) := by
  unfold Plant.setLineView; simp (maxDischargeDepth := 40) +contextual [h]
@[simp] theorem Plant.setTrunkView_noted {w p : Plant} (h : w.TapNoted p) (t : Nat) (v : TrunkState) : w.TapNoted (p.setTrunkView t v) := by
  unfold Plant.setTrunkView; simp (maxDischargeDepth := 40) +contextual [h]
@[simp] theorem Plant.setFlow_noted {w p : Plant} (h : w.TapNoted p) (l : Nat) (v : Bool) : w.TapNoted (p.setFlow l v) := by
  unfold Plant.setFlow; simp (maxDischargeDepth := 40) +contextual [h]
@[simp] theorem Plant.setMarks_noted {w p : Plant} (h : w.TapNoted p) (a : Nat) (m : Marks) : w.TapNoted (p.setMarks a m) := by
  unfold Plant.setMarks; (repeat' split) <;> simp (maxDischargeDepth := 40) +contextual [h]
@[simp] theorem Plant.setStage_noted {w p : Plant} (h : w.TapNoted p) (i : Nat) (v : Stage) :
    w.TapNoted (p.setStage i v) := h.same (by simp) (by simp)
@[simp] theorem Plant.setTrunk_noted {w p : Plant} (h : w.TapNoted p) (i : Nat) (v : Trunk) :
    w.TapNoted (p.setTrunk i v) := h.same (by simp) (by simp)
@[simp] theorem Plant.setProgramme_noted {w p : Plant} (h : w.TapNoted p) (i : Nat) (v : Option Programme) :
    w.TapNoted (p.setProgramme i v) := h.same (by simp) (by simp)
@[simp] theorem Plant.setCircuit_noted {w p : Plant} (h : w.TapNoted p) (i : Nat) (v : Circuit) :
    w.TapNoted (p.setCircuit i v) := h.same (by simp) (by simp)
@[simp] theorem Plant.modJob_noted {w p : Plant} (h : w.TapNoted p) (id : Nat) (f : Job → Job) :
    w.TapNoted (p.modJob id f) := h.same (by simp) (by simp)
/-! ### Journal -/

@[simp] theorem Plant.append_noted {w p : Plant} (h : w.TapNoted p) (b : EntryBody) : w.TapNoted (p.append b) := by
  unfold Plant.append; (repeat' split) <;> simp (maxDischargeDepth := 40) +contextual [h]
@[simp] theorem Plant.record_noted {w p : Plant} (h : w.TapNoted p) (b : EntryBody) : w.TapNoted (p.record b) := by
  unfold Plant.record; (repeat' split) <;> simp (maxDischargeDepth := 40) +contextual [h]
@[simp] theorem Plant.reserve_noted {w p : Plant} (h : w.TapNoted p) : w.TapNoted (p.reserve) := h.same (by simp) (by simp)
@[simp] theorem Plant.refuseReservation_noted {w p : Plant} (h : w.TapNoted p) : w.TapNoted (p.refuseReservation) := by
  unfold Plant.refuseReservation; (repeat' split) <;> simp (maxDischargeDepth := 40) +contextual [h]
@[simp] theorem Plant.recordPour_noted {w p : Plant} (h : w.TapNoted p) (b : EntryBody) : w.TapNoted (p.recordPour b) := by
  unfold Plant.recordPour; simp (maxDischargeDepth := 40) +contextual [h]
@[simp] theorem Plant.setTotals_noted {w p : Plant} (h : w.TapNoted p) (i : Nat) (t : Totals × Totals) :
    w.TapNoted (p.setTotals i t) := h.same (by simp) (by simp)
@[simp] theorem Plant.addProduct_noted {w p : Plant} (h : w.TapNoted p) (i : Option Nat) (c : Category) (ml pours : Nat) :
    w.TapNoted (p.addProduct i c ml pours) := h.same (by simp) (by simp)
@[simp] theorem Plant.addShort_noted {w p : Plant} (h : w.TapNoted p) (i : Nat) : w.TapNoted (p.addShort i) := h.same (by simp) (by simp)
@[simp] theorem Plant.addTap_noted {w p : Plant} (h : w.TapNoted p) (t ml pours : Nat) :
    w.TapNoted (p.addTap t ml pours) := h.same (by simp) (by simp)
@[simp] theorem Plant.addSource_noted {w p : Plant} (h : w.TapNoted p) (i : Option Nat) (ml since : Nat) :
    w.TapNoted (p.addSource i ml since) := h.same (by simp) (by simp)
@[simp] theorem Plant.countClose_noted {w p : Plant} (h : w.TapNoted p) (o : Outcome) (product : Nat) :
    w.TapNoted (p.countClose o product) := h.same (by simp) (by simp)
@[simp] theorem Plant.countIssue_noted {w p : Plant} (h : w.TapNoted p) : w.TapNoted (p.countIssue) := h.same (by simp) (by simp)
/-! ### Taps -/

@[simp] theorem Plant.refreshTaps_noted {w p : Plant} (h : w.TapNoted p) (l : List Nat) : w.TapNoted (p.refreshTaps l) := by
  unfold Plant.refreshTaps; simp (maxDischargeDepth := 40) +contextual [h]
@[simp] theorem Plant.refreshMapped_noted {w p : Plant} (h : w.TapNoted p) : w.TapNoted (p.refreshMapped) := by
  unfold Plant.refreshMapped; simp (maxDischargeDepth := 40) +contextual [h]
@[simp] theorem Plant.changeTap_noted {w p : Plant} (h : w.TapNoted p) (i : Nat) (f : Tap → Tap) (hf : ∀ t, (f t).state = t.state) :
    w.TapNoted (p.changeTap i f) := by
  unfold Plant.changeTap; simp [h, hf]
@[simp] theorem Plant.takeCause_noted {w p : Plant} (h : w.TapNoted p) (i : Nat) (c : EndCause) : w.TapNoted (p.takeCause i c) := by
  unfold Plant.takeCause; (repeat' split) <;> simp (maxDischargeDepth := 40) +contextual [h]
@[simp] theorem Plant.refreshLamps_noted {w p : Plant} (h : w.TapNoted p) (l : List Nat) : w.TapNoted (p.refreshLamps l) := by
  unfold Plant.refreshLamps; simp (maxDischargeDepth := 40) +contextual [h]
@[simp] theorem Plant.queueEvent_noted {w p : Plant} (h : w.TapNoted p) (a : Nat) : w.TapNoted (p.queueEvent a) := by
  unfold Plant.queueEvent; simp (maxDischargeDepth := 40) +contextual [h]
/-! ### Tickets -/

@[simp] theorem Plant.closeTicket_noted {w p : Plant} (h : w.TapNoted p) (i : Nat) (o : Outcome) (atPour : Bool) :
    w.TapNoted (p.closeTicket i o atPour) := by
  unfold Plant.closeTicket; (repeat' split) <;> simp (maxDischargeDepth := 40) +contextual [h]
@[simp] theorem Plant.expireTicket_noted {w p : Plant} (h : w.TapNoted p) (i : Nat) (o : Outcome) : w.TapNoted (p.expireTicket i o) := by
  unfold Plant.expireTicket; (repeat' split) <;> simp (maxDischargeDepth := 40) +contextual [h]
@[simp] theorem Plant.claimTicket_noted {w p : Plant} (h : w.TapNoted p) (i tap : Nat) : w.TapNoted (p.claimTicket i tap) := by
  unfold Plant.claimTicket; (repeat' split) <;> simp (maxDischargeDepth := 40) +contextual [h]
@[simp] theorem Plant.returnTicket_noted {w p : Plant} (h : w.TapNoted p) (i tap : Nat) : w.TapNoted (p.returnTicket i tap) := by
  unfold Plant.returnTicket; (repeat' split) <;> simp (maxDischargeDepth := 40) +contextual [h]
@[simp] theorem Plant.partTicket_noted {w p : Plant} (h : w.TapNoted p) (i : Nat) (k : Ticket) (ml : Nat) :
    w.TapNoted (p.partTicket i k ml) := by
  unfold Plant.partTicket; (repeat' split) <;> simp (maxDischargeDepth := 40) +contextual [h]
@[simp] theorem Plant.takeOutcome_noted {w p : Plant} (h : w.TapNoted p) (i ml : Nat) (o : Outcome) :
    w.TapNoted (p.takeOutcome i ml o) := by
  unfold Plant.takeOutcome; (repeat' split) <;> simp (maxDischargeDepth := 40) +contextual [h]
@[simp] theorem Plant.validityOut_noted {w p : Plant} (h : w.TapNoted p) (i : Nat) : w.TapNoted (p.validityOut i) := by
  unfold Plant.validityOut; (repeat' split) <;> simp (maxDischargeDepth := 40) +contextual [h]
@[simp] theorem Plant.topupOut_noted {w p : Plant} (h : w.TapNoted p) (i : Nat) : w.TapNoted (p.topupOut i) := by
  unfold Plant.topupOut; (repeat' split) <;> simp (maxDischargeDepth := 40) +contextual [h]
@[simp] theorem Plant.issueTicket_noted {w p : Plant} (h : w.TapNoted p) (i station product portion validity : Nat) (reference : Word32) :
    w.TapNoted (p.issueTicket i station product portion validity reference) := by
  unfold Plant.issueTicket; simp (maxDischargeDepth := 40) +contextual [h]
/-! ### Kegs -/

@[simp] theorem Plant.modSource_noted {w p : Plant} (h : w.TapNoted p) (i : Nat) (f : Source → Source) :
    w.TapNoted (p.modSource i f) := h.same (by simp) (by simp)
@[simp] theorem Plant.raiseSource_noted {w p : Plant} (h : w.TapNoted p) (i : Nat) : w.TapNoted (p.raiseSource i) := by
  unfold Plant.raiseSource; simp (maxDischargeDepth := 40) +contextual [h]
@[simp] theorem Plant.setSourceState_noted {w p : Plant} (h : w.TapNoted p) (i : Nat) (st : SourceState) :
    w.TapNoted (p.setSourceState i st) := by
  unfold Plant.setSourceState; simp (maxDischargeDepth := 40) +contextual [h]
@[simp] theorem Plant.refreshOutlet_noted {w p : Plant} (h : w.TapNoted p) (l : Nat) :
    w.TapNoted (p.refreshOutlet l) := h.same (by simp) (by simp)
@[simp] theorem Plant.leaveChain_noted {w p : Plant} (h : w.TapNoted p) (i : Nat) :
    w.TapNoted (p.leaveChain i) := h.same (by simp) (by simp)
@[simp] theorem Plant.kegClose_noted {w p : Plant} (h : w.TapNoted p) (i : Nat) : w.TapNoted (p.kegClose i) := by
  unfold Plant.kegClose; (repeat' split) <;> simp (maxDischargeDepth := 40) +contextual [h]
@[simp] theorem Plant.vacate_noted {w p : Plant} (h : w.TapNoted p) (i : Nat) : w.TapNoted (p.vacate i) := by
  unfold Plant.vacate; simp (maxDischargeDepth := 40) +contextual [h]
@[simp] theorem Plant.endKeg_noted {w p : Plant} (h : w.TapNoted p) (i : Nat) (st : SourceState) : w.TapNoted (p.endKeg i st) := by
  unfold Plant.endKeg; simp (maxDischargeDepth := 40) +contextual [h]
@[simp] theorem Plant.unloadLoaded_noted {w p : Plant} (h : w.TapNoted p) (i : Nat) : w.TapNoted (p.unloadLoaded i) := by
  unfold Plant.unloadLoaded; (repeat' split) <;> simp (maxDischargeDepth := 40) +contextual [h]
@[simp] theorem Plant.pourOn_noted {w p : Plant} (h : w.TapNoted p) (i : Nat) : w.TapNoted (p.pourOn i) := h.same (by simp) (by simp)
@[simp] theorem Plant.pourOff_noted {w p : Plant} (h : w.TapNoted p) (i : Nat) : w.TapNoted (p.pourOff i) := by
  unfold Plant.pourOff; simp (maxDischargeDepth := 40) +contextual [h]
@[simp] theorem Plant.headOnLine_noted {w p : Plant} (h : w.TapNoted p) (l : Nat) : w.TapNoted (p.headOnLine l) := by
  unfold Plant.headOnLine; (repeat' split) <;> simp (maxDischargeDepth := 40) +contextual [h]
@[simp] theorem Plant.headLoaded_noted {w p : Plant} (h : w.TapNoted p) (l : Nat) : w.TapNoted (p.headLoaded l) := by
  unfold Plant.headLoaded; (repeat' split) <;> simp (maxDischargeDepth := 40) +contextual [h]
@[simp] theorem Plant.unbind_noted {w p : Plant} (h : w.TapNoted p) (i : Nat) : w.TapNoted (p.unbind i) := by
  unfold Plant.unbind; simp (maxDischargeDepth := 40) +contextual [h]
@[simp] theorem Plant.bind_noted {w p : Plant} (h : w.TapNoted p) (i a k : Nat) : w.TapNoted (p.bind i a k) := h.same (by simp) (by simp)
/-! ### Lines -/

@[simp] theorem Plant.peLineEvent_noted {w p : Plant} (h : w.TapNoted p) (l : Nat) (cause : Option EndCause) :
    w.TapNoted (p.peLineEvent l cause) := by
  unfold Plant.peLineEvent; (repeat' split) <;> simp (maxDischargeDepth := 40) +contextual [h]
@[simp] theorem Plant.lineEvent_noted {w p : Plant} (h : w.TapNoted p) (l : Nat) (cause : Option EndCause) :
    w.TapNoted (p.lineEvent l cause) := by
  unfold Plant.lineEvent
  repeat' (first
    | with_reducible assumption | with_reducible rfl | (simp (maxDischargeDepth := 40) +contextual [h]; done) | split
    | (with_reducible refine Plant.TapNoted.foldl ?_ _ (fun q a hq => ?_) _)
    | (with_reducible refine Plant.modTap_noted ?_ _ _ (fun t => ?_))
    | (with_reducible refine Plant.changeTap_noted ?_ _ _ (fun t => ?_)) | (simp (maxDischargeDepth := 40) +contextual [*]; done)
    | dsimp only)
@[simp] theorem Plant.enterLine_noted {w p : Plant} (h : w.TapNoted p) (l : Nat) (st : LineState) (c : Content) (cause : Option EndCause) :
    w.TapNoted (p.enterLine l st c cause) := by
  unfold Plant.enterLine; simp (maxDischargeDepth := 40) +contextual [h]
@[simp] theorem Plant.moveLine_noted {w p : Plant} (h : w.TapNoted p) (l : Nat) (st : LineState) (cause : Option EndCause) :
    w.TapNoted (p.moveLine l st cause) := by
  unfold Plant.moveLine; simp (maxDischargeDepth := 40) +contextual [h]
@[simp] theorem Plant.setContent_noted {w p : Plant} (h : w.TapNoted p) (l : Nat) (c : Content) :
    w.TapNoted (p.setContent l c) := h.same (by simp) (by simp)
@[simp] theorem Plant.dropChange_noted {w p : Plant} (h : w.TapNoted p) (l : Nat) :
    w.TapNoted (p.dropChange l) := h.same (by simp) (by simp)
@[simp] theorem Plant.setUnsupervised_noted {w p : Plant} (h : w.TapNoted p) (l : Nat) (b : Bool) : w.TapNoted (p.setUnsupervised l b) := by
  unfold Plant.setUnsupervised; simp (maxDischargeDepth := 40) +contextual [h]
@[simp] theorem Plant.startAttempt_noted {w p : Plant} (h : w.TapNoted p) (l : Nat) (fromPos : Option Nat) :
    w.TapNoted (p.startAttempt l fromPos) := by
  unfold Plant.startAttempt; (repeat' split) <;> simp (maxDischargeDepth := 40) +contextual [h]
@[simp] theorem Plant.nextKeg_noted {w p : Plant} (h : w.TapNoted p) (l : Nat) (go : Bool) (fromPos : Option Nat)
    (cause : Option EndCause) :
    w.TapNoted (p.nextKeg l go fromPos cause) := by
  unfold Plant.nextKeg; (repeat' split) <;> simp (maxDischargeDepth := 40) +contextual [h]
@[simp] theorem Plant.changeResult_noted {w p : Plant} (h : w.TapNoted p) (l : Nat) (c : Changeover) (r : ChangeResult) :
    w.TapNoted (p.changeResult l c r) := by
  unfold Plant.changeResult; simp (maxDischargeDepth := 40) +contextual [h]
@[simp] theorem Plant.kegEndServing_noted {w p : Plant} (h : w.TapNoted p) (l : Nat) (x : Line) (cause : EndCause) :
    w.TapNoted (p.kegEndServing l x cause) := by
  unfold Plant.kegEndServing; (repeat' split) <;> simp (maxDischargeDepth := 40) +contextual [h]
@[simp] theorem Plant.failAttempt_noted {w p : Plant} (h : w.TapNoted p) (l : Nat) (c : Changeover) (r : ChangeResult)
    (cause : Option EndCause) :
    w.TapNoted (p.failAttempt l c r cause) := by
  unfold Plant.failAttempt; simp (maxDischargeDepth := 40) +contextual [h]
@[simp] theorem Plant.kegEndOpen_noted {w p : Plant} (h : w.TapNoted p) (l : Nat) (x : Line) (cause : EndCause) :
    w.TapNoted (p.kegEndOpen l x cause) := by
  unfold Plant.kegEndOpen; (repeat' split) <;> simp (maxDischargeDepth := 40) +contextual [h]
@[simp] theorem Plant.primeAttempt_noted {w p : Plant} (h : w.TapNoted p) (l : Nat) (c : Changeover) : w.TapNoted (p.primeAttempt l c) := by
  unfold Plant.primeAttempt; simp (maxDischargeDepth := 40) +contextual [h]
@[simp] theorem Plant.interruptAttempt_noted {w p : Plant} (h : w.TapNoted p) (l : Nat) (removal : Bool) :
    w.TapNoted (p.interruptAttempt l removal) := by
  unfold Plant.interruptAttempt; (repeat' split) <;> simp (maxDischargeDepth := 40) +contextual [h]
@[simp] theorem Plant.lmStop_noted {w p : Plant} (h : w.TapNoted p) : w.TapNoted (p.lmStop) := by
  unfold Plant.lmStop; simp (maxDischargeDepth := 40) +contextual [h]
@[simp] theorem Plant.takeForDraining_noted {w p : Plant} (h : w.TapNoted p) (l : Nat) : w.TapNoted (p.takeForDraining l) := by
  unfold Plant.takeForDraining; (repeat' split) <;> simp (maxDischargeDepth := 40) +contextual [h]
@[simp] theorem Plant.takeForCleaning_noted {w p : Plant} (h : w.TapNoted p) (l : Nat) : w.TapNoted (p.takeForCleaning l) := by
  unfold Plant.takeForCleaning; (repeat' split) <;> simp (maxDischargeDepth := 40) +contextual [h]
@[simp] theorem Plant.clearJob_noted {w p : Plant} (h : w.TapNoted p) (l : Nat) : w.TapNoted (p.clearJob l) := h.same (by simp) (by simp)
@[simp] theorem Plant.csSetContent_noted {w p : Plant} (h : w.TapNoted p) (l : Nat) (c : Content) :
    w.TapNoted (p.csSetContent l c) := h.same (by simp) (by simp)
@[simp] theorem Plant.selectHead_noted {w p : Plant} (h : w.TapNoted p) (l : Nat) : w.TapNoted (p.selectHead l) := by
  unfold Plant.selectHead; (repeat' split) <;> simp (maxDischargeDepth := 40) +contextual [h]
@[simp] theorem Plant.returnToService_noted {w p : Plant} (h : w.TapNoted p) (l : Nat) : w.TapNoted (p.returnToService l) := by
  unfold Plant.returnToService; (repeat' split) <;> simp (maxDischargeDepth := 40) +contextual [h]
@[simp] theorem Plant.lockLine_noted {w p : Plant} (h : w.TapNoted p) (l : Nat) (c : Content) : w.TapNoted (p.lockLine l c) := by
  unfold Plant.lockLine; (repeat' split) <;> simp (maxDischargeDepth := 40) +contextual [h]
@[simp] theorem Plant.releaseLine_noted {w p : Plant} (h : w.TapNoted p) (l : Nat) : w.TapNoted (p.releaseLine l) := by
  unfold Plant.releaseLine; (repeat' split) <;> simp (maxDischargeDepth := 40) +contextual [h]
/-! ### Cooling -/

@[simp] theorem Plant.modCc_noted {w p : Plant} (h : w.TapNoted p) (f : Cc → Cc) : w.TapNoted (p.modCc f) := h.same (by simp) (by simp)
@[simp] theorem Plant.setCooling_noted {w p : Plant} (h : w.TapNoted p) (st : CoolingState) (cause : CoolingCause) :
    w.TapNoted (p.setCooling st cause) := by
  unfold Plant.setCooling; simp (maxDischargeDepth := 40) +contextual [h]
@[simp] theorem Plant.degrade_noted {w p : Plant} (h : w.TapNoted p) (why : DegradeCause) : w.TapNoted (p.degrade why) := by
  unfold Plant.degrade; (repeat' split) <;> simp (maxDischargeDepth := 40) +contextual [h]
@[simp] theorem Plant.enterRunning_noted {w p : Plant} (h : w.TapNoted p) (cause : CoolingCause) : w.TapNoted (p.enterRunning cause) := by
  unfold Plant.enterRunning; (repeat' split) <;> simp (maxDischargeDepth := 40) +contextual [h]
@[simp] theorem Plant.coolingLive_noted {w p : Plant} (h : w.TapNoted p) : w.TapNoted (p.coolingLive) := by
  unfold Plant.coolingLive; (repeat' split) <;> simp (maxDischargeDepth := 40) +contextual [h]
@[simp] theorem Plant.coolingLoss_noted {w p : Plant} (h : w.TapNoted p) : w.TapNoted (p.coolingLoss) := by
  unfold Plant.coolingLoss; simp (maxDischargeDepth := 40) +contextual [h]
@[simp] theorem Plant.tripStage_noted {w p : Plant} (h : w.TapNoted p) (i : Nat) : w.TapNoted (p.tripStage i) := by
  unfold Plant.tripStage
  repeat' (first
    | with_reducible assumption | with_reducible rfl | (simp (maxDischargeDepth := 40) +contextual [h]; done) | split
    | (with_reducible refine Plant.TapNoted.foldl ?_ _ (fun q a hq => ?_) _)
    | (with_reducible refine Plant.modTap_noted ?_ _ _ (fun t => ?_))
    | (with_reducible refine Plant.changeTap_noted ?_ _ _ (fun t => ?_)) | (simp (maxDischargeDepth := 40) +contextual [*]; done)
    | dsimp only)
@[simp] theorem Plant.judgeDegrade_noted {w p : Plant} (h : w.TapNoted p) : w.TapNoted (p.judgeDegrade) := by
  unfold Plant.judgeDegrade; (repeat' split) <;> simp (maxDischargeDepth := 40) +contextual [h]
@[simp] theorem Plant.peTrunkEvent_noted {w p : Plant} (h : w.TapNoted p) (i : Nat) (st : TrunkState) :
    w.TapNoted (p.peTrunkEvent i st) := by
  unfold Plant.peTrunkEvent; simp (maxDischargeDepth := 40) +contextual [h]
@[simp] theorem Plant.modTrunk_noted {w p : Plant} (h : w.TapNoted p) (i : Nat) (f : Trunk → Trunk) :
    w.TapNoted (p.modTrunk i f) := h.same (by simp) (by simp)
@[simp] theorem Plant.setTrunkState_noted {w p : Plant} (h : w.TapNoted p) (i : Nat) (st : TrunkState) (cause : TrunkCause) :
    w.TapNoted (p.setTrunkState i st cause) := by
  unfold Plant.setTrunkState
  split
  · exact h
  · exact Plant.noted_cs (by simp (maxDischargeDepth := 40) +contextual [h]) _
@[simp] theorem Plant.takePump_noted {w p : Plant} (h : w.TapNoted p) (i : Nat) (running : Bool) :
    w.TapNoted (p.takePump i running) := h.same (by simp) (by simp)
@[simp] theorem Plant.takeReturn_noted {w p : Plant} (h : w.TapNoted p) (i : Nat) (t : Int) : w.TapNoted (p.takeReturn i t) := by
  unfold Plant.takeReturn; (repeat' split) <;> simp (maxDischargeDepth := 40) +contextual [h]
@[simp] theorem Plant.takeTrunks_noted {w p : Plant} (h : w.TapNoted p) (returns : Vector Int 8) (pumps : Vector Bool 8) :
    w.TapNoted (p.takeTrunks returns pumps) := by
  unfold Plant.takeTrunks; simp (maxDischargeDepth := 40) +contextual [h]
@[simp] theorem Plant.coolingStatus_noted {w p : Plant} (h : w.TapNoted p) (bath : Int) (running tripped : Vector Bool 3)
    (returns : Vector Int 8) (pumps : Vector Bool 8) :
    w.TapNoted (p.coolingStatus bath running tripped returns pumps) := by
  unfold Plant.coolingStatus
  repeat' (first
    | with_reducible assumption | with_reducible rfl | (simp (maxDischargeDepth := 40) +contextual [h]; done) | split
    | (with_reducible refine Plant.TapNoted.foldl ?_ _ (fun q a hq => ?_) _)
    | (with_reducible refine Plant.modTap_noted ?_ _ _ (fun t => ?_))
    | (with_reducible refine Plant.changeTap_noted ?_ _ _ (fun t => ?_)) | (simp (maxDischargeDepth := 40) +contextual [*]; done)
    | dsimp only)
@[simp] theorem Plant.coolingJoin_noted {w p : Plant} (h : w.TapNoted p) : w.TapNoted (p.coolingJoin) := by
  unfold Plant.coolingJoin; simp (maxDischargeDepth := 40) +contextual [h]
@[simp] theorem Plant.graceOut_noted {w p : Plant} (h : w.TapNoted p) : w.TapNoted (p.graceOut) := by
  unfold Plant.graceOut; simp (maxDischargeDepth := 40) +contextual [h]
@[simp] theorem Plant.pumpOut_noted {w p : Plant} (h : w.TapNoted p) (i : Nat) : w.TapNoted (p.pumpOut i) := by
  unfold Plant.pumpOut; simp (maxDischargeDepth := 40) +contextual [h]
@[simp] theorem Plant.degradeOut_noted {w p : Plant} (h : w.TapNoted p) : w.TapNoted (p.degradeOut) := by
  unfold Plant.degradeOut; simp (maxDischargeDepth := 40) +contextual [h]
/-! ### Cleaning -/

@[simp] theorem Plant.peTake_noted {w p : Plant} (h : w.TapNoted p) (l : Nat) : w.TapNoted (p.peTake l) := by
  unfold Plant.peTake; simp (maxDischargeDepth := 40) +contextual [h]
@[simp] theorem Plant.peRelease_noted {w p : Plant} (h : w.TapNoted p) (l : Nat) : w.TapNoted (p.peRelease l) := by
  unfold Plant.peRelease
  repeat' (first
    | with_reducible assumption | with_reducible rfl | (simp (maxDischargeDepth := 40) +contextual [h]; done) | split
    | (with_reducible refine Plant.TapNoted.foldl ?_ _ (fun q a hq => ?_) _)
    | (with_reducible refine Plant.modTap_noted ?_ _ _ (fun t => ?_))
    | (with_reducible refine Plant.changeTap_noted ?_ _ _ (fun t => ?_)) | (simp (maxDischargeDepth := 40) +contextual [*]; done)
    | dsimp only)
@[simp] theorem Plant.pePreempt_noted {w p : Plant} (h : w.TapNoted p) (l : Nat) : w.TapNoted (p.pePreempt l) := by
  unfold Plant.pePreempt; simp (maxDischargeDepth := 40) +contextual [h]
@[simp] theorem Plant.setFlows_noted {w p : Plant} (h : w.TapNoted p) (lines : List Nat) (on : Bool) :
    w.TapNoted (p.setFlows lines on) := by
  unfold Plant.setFlows; simp (maxDischargeDepth := 40) +contextual [h]
@[simp] theorem Plant.modCircuit_noted {w p : Plant} (h : w.TapNoted p) (c : Nat) (f : Circuit → Circuit) :
    w.TapNoted (p.modCircuit c f) := h.same (by simp) (by simp)
@[simp] theorem Plant.writeOut_noted {w p : Plant} (h : w.TapNoted p) (c : Nat) (pump : Bool) (m : MediumOut) (drain : Bool) :
    w.TapNoted (p.writeOut c pump m drain) := h.same (by simp) (by simp)
@[simp] theorem Plant.writeThreshold_noted {w p : Plant} (h : w.TapNoted p) (c threshold : Nat) :
    w.TapNoted (p.writeThreshold c threshold) := h.same (by simp) (by simp)
@[simp] theorem Plant.connect_noted {w p : Plant} (h : w.TapNoted p) (c trunk id : Nat) :
    w.TapNoted (p.connect c trunk id) := h.same (by simp) (by simp)
@[simp] theorem Plant.disconnect_noted {w p : Plant} (h : w.TapNoted p) (c : Nat) (fault : Option FaultCause) :
    w.TapNoted (p.disconnect c fault) := h.same (by simp) (by simp)
@[simp] theorem Plant.setJobState_noted {w p : Plant} (h : w.TapNoted p) (id : Nat) (st : JobState) (second : Nat) :
    w.TapNoted (p.setJobState id st second) := by
  unfold Plant.setJobState; simp (maxDischargeDepth := 40) +contextual [h]
@[simp] theorem Plant.dropLine_noted {w p : Plant} (h : w.TapNoted p) (id l : Nat) :
    w.TapNoted (p.dropLine id l) := h.same (by simp) (by simp)
@[simp] theorem Plant.finishJob_noted {w p : Plant} (h : w.TapNoted p) (j : Job) (st : JobState) (cause : Option AbortCause)
    (f : FlushResult) :
    w.TapNoted (p.finishJob j st cause f) := by
  unfold Plant.finishJob
  exact Plant.noted_cs (by simp (maxDischargeDepth := 40) +contextual [h]) _
@[simp] theorem Plant.completeJob_noted {w p : Plant} (h : w.TapNoted p) (id : Nat) : w.TapNoted (p.completeJob id) := by
  unfold Plant.completeJob; (repeat' split) <;> simp (maxDischargeDepth := 40) +contextual [h]
@[simp] theorem Plant.lockAll_noted {w p : Plant} (h : w.TapNoted p) (j : Job) : w.TapNoted (p.lockAll j) := by
  unfold Plant.lockAll; simp (maxDischargeDepth := 40) +contextual [h]
@[simp] theorem Plant.flushFail_noted {w p : Plant} (h : w.TapNoted p) (id : Nat) (why : FaultCause) : w.TapNoted (p.flushFail id why) := by
  unfold Plant.flushFail; (repeat' split) <;> simp (maxDischargeDepth := 40) +contextual [h]
@[simp] theorem Plant.flushEnd_noted {w p : Plant} (h : w.TapNoted p) (id : Nat) : w.TapNoted (p.flushEnd id) := by
  unfold Plant.flushEnd; (repeat' split) <;> simp (maxDischargeDepth := 40) +contextual [h]
@[simp] theorem Plant.flushStart_noted {w p : Plant} (h : w.TapNoted p) (id : Nat) : w.TapNoted (p.flushStart id) := by
  unfold Plant.flushStart; (repeat' split) <;> simp (maxDischargeDepth := 40) +contextual [h]
@[simp] theorem Plant.purge_noted {w p : Plant} (h : w.TapNoted p) (j : Job) (l : Nat) (head : Option Nat) :
    w.TapNoted (p.purge j l head) := by
  unfold Plant.purge; (repeat' split) <;> simp (maxDischargeDepth := 40) +contextual [h]
@[simp] theorem Plant.settleLine_noted {w p : Plant} (h : w.TapNoted p) (proof : Bool) (l : Nat) : w.TapNoted (p.settleLine proof l) := by
  unfold Plant.settleLine; (repeat' split) <;> simp (maxDischargeDepth := 40) +contextual [h]
@[simp] theorem Plant.abortJob_noted {w p : Plant} (h : w.TapNoted p) (id : Nat) (cause : AbortCause) :
    w.TapNoted (p.abortJob id cause) := by
  unfold Plant.abortJob; (repeat' split) <;> simp (maxDischargeDepth := 40) +contextual [h]
@[simp] theorem Plant.endJob_noted {w p : Plant} (h : w.TapNoted p) (id : Nat) (cause : AbortCause) (why : FaultCause) :
    w.TapNoted (p.endJob id cause why) := by
  unfold Plant.endJob; (repeat' split) <;> simp (maxDischargeDepth := 40) +contextual [h]
@[simp] theorem Plant.beginReturn_noted {w p : Plant} (h : w.TapNoted p) (j : Job) (l : Nat) : w.TapNoted (p.beginReturn j l) := by
  unfold Plant.beginReturn; (repeat' split) <;> simp (maxDischargeDepth := 40) +contextual [h]
theorem Plant.returnFrom_noted {w : Plant} (id : Nat) (l : List Nat) {p : Plant} (h : w.TapNoted p) :
    w.TapNoted (Plant.returnFrom id l p) := by
  induction l generalizing p with
  | nil => exact Plant.completeJob_noted h id
  | cons a l ih =>
    unfold Plant.returnFrom
    dsimp only
    (repeat' split) <;> (try apply ih) <;> simp (maxDischargeDepth := 40) +contextual [h]
@[simp] theorem Plant.nextReturn_noted {w p : Plant} (h : w.TapNoted p) (id : Nat) : w.TapNoted (p.nextReturn id) := by
  unfold Plant.nextReturn
  split
  · exact h
  · exact Plant.returnFrom_noted _ _ h
@[simp] theorem Plant.enterReturn_noted {w p : Plant} (h : w.TapNoted p) (id : Nat) : w.TapNoted (p.enterReturn id) := by
  unfold Plant.enterReturn; simp (maxDischargeDepth := 40) +contextual [h]
@[simp] theorem Plant.endReturn_noted {w p : Plant} (h : w.TapNoted p) (id l : Nat) : w.TapNoted (p.endReturn id l) := by
  unfold Plant.endReturn
  repeat' (first
    | with_reducible assumption | with_reducible rfl | (simp (maxDischargeDepth := 40) +contextual [h]; done) | split
    | (with_reducible refine Plant.TapNoted.foldl ?_ _ (fun q a hq => ?_) _)
    | (with_reducible refine Plant.modTap_noted ?_ _ _ (fun t => ?_))
    | (with_reducible refine Plant.changeTap_noted ?_ _ _ (fun t => ?_)) | (simp (maxDischargeDepth := 40) +contextual [*]; done)
    | dsimp only)
@[simp] theorem Plant.lineReturned_noted {w p : Plant} (h : w.TapNoted p) (j : Job) (l : Nat) : w.TapNoted (p.lineReturned j l) := by
  unfold Plant.lineReturned; simp (maxDischargeDepth := 40) +contextual [h]
@[simp] theorem Plant.lineLocked_noted {w p : Plant} (h : w.TapNoted p) (j : Job) (l : Nat) (head : Option Nat) :
    w.TapNoted (p.lineLocked j l head) := by
  unfold Plant.lineLocked; simp (maxDischargeDepth := 40) +contextual [h]
@[simp] theorem Plant.headChanged_noted {w p : Plant} (h : w.TapNoted p) (l old : Nat) : w.TapNoted (p.headChanged l old) := by
  unfold Plant.headChanged; (repeat' split) <;> simp (maxDischargeDepth := 40) +contextual [h]
@[simp] theorem Plant.stepContent_noted {w p : Plant} (h : w.TapNoted p) (lines : List Nat) (m : Option Medium) :
    w.TapNoted (p.stepContent lines m) := h.same (by simp) (by simp)
@[simp] theorem Plant.stepOutputs_noted {w p : Plant} (h : w.TapNoted p) (j : Job) (s : Step) (on : Bool) :
    w.TapNoted (p.stepOutputs j s on) := by
  unfold Plant.stepOutputs; (repeat' split) <;> simp (maxDischargeDepth := 40) +contextual [h]
@[simp] theorem Plant.startStep_noted {w p : Plant} (h : w.TapNoted p) (id k : Nat) : w.TapNoted (p.startStep id k) := by
  unfold Plant.startStep; (repeat' split) <;> simp (maxDischargeDepth := 40) +contextual [h]
@[simp] theorem Plant.advance_noted {w p : Plant} (h : w.TapNoted p) (id : Nat) : w.TapNoted (p.advance id) := by
  unfold Plant.advance; (repeat' split) <;> simp (maxDischargeDepth := 40) +contextual [h]
@[simp] theorem Plant.provePassed_noted {w p : Plant} (h : w.TapNoted p) (j : Job) (m : Medium) : w.TapNoted (p.provePassed j m) := by
  unfold Plant.provePassed; (repeat' split) <;> simp (maxDischargeDepth := 40) +contextual [h]
@[simp] theorem Plant.proveFailed_noted {w p : Plant} (h : w.TapNoted p) (j : Job) (onFail : Option Nat) :
    w.TapNoted (p.proveFailed j onFail) := by
  unfold Plant.proveFailed; (repeat' split) <;> simp (maxDischargeDepth := 40) +contextual [h]
@[simp] theorem Plant.judgeStep_noted {w p : Plant} (h : w.TapNoted p) (j : Job) : w.TapNoted (p.judgeStep j) := by
  unfold Plant.judgeStep; (repeat' split) <;> simp (maxDischargeDepth := 40) +contextual [h]
@[simp] theorem Plant.judgeReturn_noted {w p : Plant} (h : w.TapNoted p) (j : Job) : w.TapNoted (p.judgeReturn j) := by
  unfold Plant.judgeReturn; (repeat' split) <;> simp (maxDischargeDepth := 40) +contextual [h]
@[simp] theorem Plant.judgeFlush_noted {w p : Plant} (h : w.TapNoted p) (j : Job) : w.TapNoted (p.judgeFlush j) := by
  unfold Plant.judgeFlush; (repeat' split) <;> simp (maxDischargeDepth := 40) +contextual [h]
@[simp] theorem Plant.judgeCircuit_noted {w p : Plant} (h : w.TapNoted p) (c : Nat) : w.TapNoted (p.judgeCircuit c) := by
  unfold Plant.judgeCircuit; (repeat' split) <;> simp (maxDischargeDepth := 40) +contextual [h]
@[simp] theorem Plant.cleaningStatus_noted {w p : Plant} (h : w.TapNoted p) (tankLow : Vector Bool 3)
    (inputs : Vector CircuitInput 2) (initial : Bool) :
    w.TapNoted (p.cleaningStatus tankLow inputs initial) := by
  unfold Plant.cleaningStatus; (repeat' split) <;> simp (maxDischargeDepth := 40) +contextual [h]
@[simp] theorem Plant.pauseJob_noted {w p : Plant} (h : w.TapNoted p) (j : Job) (tap : Nat) : w.TapNoted (p.pauseJob j tap) := by
  unfold Plant.pauseJob; (repeat' split) <;> simp (maxDischargeDepth := 40) +contextual [h]
@[simp] theorem Plant.resumeJob_noted {w p : Plant} (h : w.TapNoted p) (j : Job) : w.TapNoted (p.resumeJob j) := by
  unfold Plant.resumeJob; (repeat' split) <;> simp (maxDischargeDepth := 40) +contextual [h]
@[simp] theorem Plant.capAbsent_noted {w p : Plant} (h : w.TapNoted p) (tap : Nat) : w.TapNoted (p.capAbsent tap) := by
  unfold Plant.capAbsent
  repeat' (first
    | with_reducible assumption | with_reducible rfl | (simp (maxDischargeDepth := 40) +contextual [h]; done) | split
    | (with_reducible refine Plant.TapNoted.foldl ?_ _ (fun q a hq => ?_) _)
    | (with_reducible refine Plant.modTap_noted ?_ _ _ (fun t => ?_))
    | (with_reducible refine Plant.changeTap_noted ?_ _ _ (fun t => ?_)) | (simp (maxDischargeDepth := 40) +contextual [*]; done)
    | dsimp only)
@[simp] theorem Plant.enterCapCheck_noted {w p : Plant} (h : w.TapNoted p) (j : Job) : w.TapNoted (p.enterCapCheck j) := by
  unfold Plant.enterCapCheck; simp (maxDischargeDepth := 40) +contextual [h]
@[simp] theorem Plant.leaveCapCheck_noted {w p : Plant} (h : w.TapNoted p) (j : Job) : w.TapNoted (p.leaveCapCheck j) := by
  unfold Plant.leaveCapCheck; (repeat' split) <;> simp (maxDischargeDepth := 40) +contextual [h]
@[simp] theorem Plant.grant_noted {w p : Plant} (h : w.TapNoted p) (j : Job) (c : Nat) : w.TapNoted (p.grant j c) := by
  unfold Plant.grant; simp (maxDischargeDepth := 40) +contextual [h]
theorem Plant.csNext_noted {w p q : Plant} (h : w.TapNoted p) (e : p.csNext = some q) : w.TapNoted q := by
  unfold Plant.csNext at e
  (repeat' split at e) <;> cases e <;> simp (maxDischargeDepth := 40) +contextual [h]
theorem Plant.csLoop_noted {w : Plant} (n : Nat) {p : Plant} (h : w.TapNoted p) : w.TapNoted (p.csLoop n) := by
  induction n generalizing p with
  | zero => exact h
  | succ n ih =>
    unfold Plant.csLoop
    split
    · exact h
    · next q e => exact ih (Plant.csNext_noted h e)
@[simp] theorem Plant.csSettle_noted {w p : Plant} (h : w.TapNoted p) : w.TapNoted (p.csSettle) := by
  unfold Plant.csSettle
  split
  · exact h
  · exact Plant.csLoop_noted _ h
@[simp] theorem Plant.csLoss_noted {w p : Plant} (h : w.TapNoted p) (a : Nat) : w.TapNoted (p.csLoss a) := by
  unfold Plant.csLoss
  dsimp only
  split
  · exact Plant.noted_cs (by simp (maxDischargeDepth := 40) +contextual [h]) _
  · simp (maxDischargeDepth := 40) +contextual [h]
@[simp] theorem Plant.csStop_noted {w p : Plant} (h : w.TapNoted p) : w.TapNoted (p.csStop) := by
  unfold Plant.csStop; simp (maxDischargeDepth := 40) +contextual [h]
/-! ### Pours -/

@[simp] theorem Plant.startPour_noted {w p : Plant} (h : w.TapNoted p) (i : Nat) (kind : PourKind) (targetMl ticket : Option Nat) :
    w.TapNoted (p.startPour i kind targetMl ticket) := by
  unfold Plant.startPour
  repeat' (first
    | with_reducible assumption | with_reducible rfl | (simp (maxDischargeDepth := 40) +contextual [h]; done) | split
    | (with_reducible refine Plant.TapNoted.foldl ?_ _ (fun q a hq => ?_) _)
    | (with_reducible refine Plant.modTap_noted ?_ _ _ (fun t => ?_))
    | (with_reducible refine Plant.changeTap_noted ?_ _ _ (fun t => ?_)) | (simp (maxDischargeDepth := 40) +contextual [*]; done)
    | dsimp only)
@[simp] theorem Plant.tryPour_noted {w p : Plant} (h : w.TapNoted p) (i : Nat) (kind : PourKind) (targetMl ticket : Option Nat) :
    w.TapNoted (p.tryPour i kind targetMl ticket) := by
  unfold Plant.tryPour; (repeat' split) <;> simp (maxDischargeDepth := 40) +contextual [h]
@[simp] theorem Plant.claimPress_noted {w p : Plant} (h : w.TapNoted p) (i : Nat) : w.TapNoted (p.claimPress i) := by
  unfold Plant.claimPress
  repeat' (first
    | with_reducible assumption | with_reducible rfl | (simp (maxDischargeDepth := 40) +contextual [h]; done) | split
    | (with_reducible refine Plant.TapNoted.foldl ?_ _ (fun q a hq => ?_) _)
    | (with_reducible refine Plant.modTap_noted ?_ _ _ (fun t => ?_))
    | (with_reducible refine Plant.changeTap_noted ?_ _ _ (fun t => ?_)) | (simp (maxDischargeDepth := 40) +contextual [*]; done)
    | dsimp only)
@[simp] theorem Plant.takePress_noted {w p : Plant} (h : w.TapNoted p) (i : Nat) : w.TapNoted (p.takePress i) := by
  unfold Plant.takePress
  repeat' (first
    | with_reducible assumption | with_reducible rfl | (simp (maxDischargeDepth := 40) +contextual [h]; done) | split
    | (with_reducible refine Plant.TapNoted.foldl ?_ _ (fun q a hq => ?_) _)
    | (with_reducible refine Plant.modTap_noted ?_ _ _ (fun t => ?_))
    | (with_reducible refine Plant.changeTap_noted ?_ _ _ (fun t => ?_)) | (simp (maxDischargeDepth := 40) +contextual [*]; done)
    | dsimp only)
@[simp] theorem Plant.takeRelease_noted {w p : Plant} (h : w.TapNoted p) (i : Nat) : w.TapNoted (p.takeRelease i) := by
  unfold Plant.takeRelease; (repeat' split) <;> simp (maxDischargeDepth := 40) +contextual [h]
@[simp] theorem Plant.calibrationStep_noted {w p : Plant} (h : w.TapNoted p) (i : Nat) (u : Pour) (pulses ml : Nat) :
    w.TapNoted (p.calibrationStep i u pulses ml) := by
  unfold Plant.calibrationStep; (repeat' split) <;> simp (maxDischargeDepth := 40) +contextual [h]
@[simp] theorem Plant.pourResult_noted {w p : Plant} (h : w.TapNoted p) (u : Pour) (ml : Nat) : w.TapNoted (p.pourResult u ml).1 := by
  unfold Plant.pourResult
  split
  · exact h
  · split
    · exact h
    · simp [h]
@[simp] theorem Plant.completePour_noted {w p : Plant} (h : w.TapNoted p) (i : Nat) (incomplete : Bool) :
    w.TapNoted (p.completePour i incomplete) := by
  unfold Plant.completePour
  repeat' (first
    | with_reducible assumption | with_reducible rfl | (simp (maxDischargeDepth := 40) +contextual [h]; done) | split
    | (with_reducible refine Plant.TapNoted.foldl ?_ _ (fun q a hq => ?_) _)
    | (with_reducible refine Plant.modTap_noted ?_ _ _ (fun t => ?_))
    | (with_reducible refine Plant.changeTap_noted ?_ _ _ (fun t => ?_)) | (simp (maxDischargeDepth := 40) +contextual [*]; done)
    | dsimp only)
@[simp] theorem Tap.creepBy_state (t : Tap) (n : Nat) : (t.creepBy n).state = t.state := by
  unfold Tap.creepBy; (repeat' split) <;> rfl
@[simp] theorem Plant.takeCount_noted {w p : Plant} (h : w.TapNoted p) (i : Nat) (c : Count24) (initial : Bool) :
    w.TapNoted (p.takeCount i c initial) := by
  unfold Plant.takeCount
  refine Plant.modTap_noted h _ _ (fun t => ?_)
  dsimp only
  (repeat' split) <;> simp
@[simp] theorem Plant.takeHoldExpired_noted {w p : Plant} (h : w.TapNoted p) (taps : List Nat) : w.TapNoted (p.takeHoldExpired taps) := by
  unfold Plant.takeHoldExpired; simp (maxDischargeDepth := 40) +contextual [h]
@[simp] theorem Plant.takeValve_noted {w p : Plant} (h : w.TapNoted p) (i : Nat) (isOpen cutOff : Bool) :
    w.TapNoted (p.takeValve i isOpen cutOff) := by
  unfold Plant.takeValve; simp (maxDischargeDepth := 40) +contextual [h]
@[simp] theorem Plant.takeStall_noted {w p : Plant} (h : w.TapNoted p) (i : Nat) (counted : Bool) : w.TapNoted (p.takeStall i counted) := by
  unfold Plant.takeStall; (repeat' split) <;> simp (maxDischargeDepth := 40) +contextual [h]
@[simp] theorem Plant.takeHandle_noted {w p : Plant} (h : w.TapNoted p) (i : Nat) (before : Option Bool) (pressed : Bool) :
    w.TapNoted (p.takeHandle i before pressed) := by
  unfold Plant.takeHandle; (repeat' split) <;> simp (maxDischargeDepth := 40) +contextual [h]
@[simp] theorem Plant.takeCap_noted {w p : Plant} (h : w.TapNoted p) (i : Nat) (fitted : Bool) : w.TapNoted (p.takeCap i fitted) := by
  unfold Plant.takeCap
  have hq := Plant.changeTap_noted h i (fun x =>
    if ((p.tap i).state == .cleaning && (p.tap i).capImage != some fitted) && !fitted && x.released then
      { x with capImage := some fitted, cleaning := false, released := false } else { x with capImage := some fitted })
    (fun t => by split <;> rfl)
  dsimp only
  generalize Plant.changeTap p i _ = q at hq ⊢
  split
  · exact Plant.capAbsent_noted hq _
  · exact hq
@[simp] theorem Plant.takeTap_noted {w p : Plant} (h : w.TapNoted p) (i : Nat) (inp : TapInput) (before : Option Bool) (initial : Bool) :
    w.TapNoted (p.takeTap i inp before initial) := by
  unfold Plant.takeTap; (repeat' split) <;> simp (maxDischargeDepth := 40) +contextual [h]
@[simp] theorem Plant.tapStatus_noted {w p : Plant} (h : w.TapNoted p) (a : Nat) (taps : List TapInput) (old : Option
    (List TapInput)) (holdExpired : Bool) :
    w.TapNoted (p.tapStatus a taps old holdExpired) := by
  unfold Plant.tapStatus
  repeat' (first
    | with_reducible assumption | with_reducible rfl | (simp (maxDischargeDepth := 40) +contextual [h]; done) | split
    | (with_reducible refine Plant.TapNoted.foldl ?_ _ (fun q a hq => ?_) _)
    | (with_reducible refine Plant.modTap_noted ?_ _ _ (fun t => ?_))
    | (with_reducible refine Plant.changeTap_noted ?_ _ _ (fun t => ?_)) | (simp (maxDischargeDepth := 40) +contextual [*]; done)
    | dsimp only)
@[simp] theorem Plant.losePour_noted {w p : Plant} (h : w.TapNoted p) (i : Nat) : w.TapNoted (p.losePour i) := by
  unfold Plant.losePour; (repeat' split) <;> simp (maxDischargeDepth := 40) +contextual [h]
@[simp] theorem Plant.tapLoss_noted {w p : Plant} (h : w.TapNoted p) (a : Nat) : w.TapNoted (p.tapLoss a) := by
  unfold Plant.tapLoss; simp (maxDischargeDepth := 40) +contextual [h]
@[simp] theorem Plant.takeLate_noted {w p : Plant} (h : w.TapNoted p) (i : Nat) (c : Count24) : w.TapNoted (p.takeLate i c) := by
  unfold Plant.takeLate
  split
  · exact h
  · next r e =>
    have hq := Plant.modTap_noted h i (fun t => { t with late := none }) (fun _ => rfl)
    dsimp only
    generalize Plant.modTap p i _ = q at hq ⊢
    split
    · exact hq
    · split
      · simp (maxDischargeDepth := 40) +contextual [hq]
      · exact Plant.modTap_noted (Plant.record_noted hq _) _ _ (fun t => Tap.creepBy_state t _)
@[simp] theorem Plant.tapJoin_noted {w p : Plant} (h : w.TapNoted p) (a : Nat) (taps : List TapInput) (restarted holdExpired : Bool) :
    w.TapNoted (p.tapJoin a taps restarted holdExpired) := by
  unfold Plant.tapJoin
  dsimp only
  refine Plant.refreshTaps_noted (Plant.tapStatus_noted ?_ _ _ _ _) _
  split
  · simp (maxDischargeDepth := 40) +contextual [h]
  · refine Plant.TapNoted.foldl h _ (fun q k hq => ?_) _
    split
    · exact Plant.takeLate_noted hq _ _
    · exact hq
@[simp] theorem Plant.peStop_noted {w p : Plant} (h : w.TapNoted p) : w.TapNoted (p.peStop) := by
  unfold Plant.peStop; simp (maxDischargeDepth := 40) +contextual [h]
/-! ### Cellar -/

@[simp] theorem Plant.kegEndOut_noted {w p : Plant} (h : w.TapNoted p) (l : Nat) : w.TapNoted (p.kegEndOut l) := by
  unfold Plant.kegEndOut; (repeat' split) <;> simp (maxDischargeDepth := 40) +contextual [h]
@[simp] theorem Plant.kegEndReturn_noted {w p : Plant} (h : w.TapNoted p) (l : Nat) : w.TapNoted (p.kegEndReturn l) := by
  unfold Plant.kegEndReturn
  repeat' (first
    | with_reducible assumption | with_reducible rfl | (simp (maxDischargeDepth := 40) +contextual [h]; done) | split
    | (with_reducible refine Plant.TapNoted.foldl ?_ _ (fun q a hq => ?_) _)
    | (with_reducible refine Plant.modTap_noted ?_ _ _ (fun t => ?_))
    | (with_reducible refine Plant.changeTap_noted ?_ _ _ (fun t => ?_)) | (simp (maxDischargeDepth := 40) +contextual [*]; done)
    | dsimp only)
@[simp] theorem Plant.kegEnd_noted {w p : Plant} (h : w.TapNoted p) (l : Nat) (cause : EndCause) : w.TapNoted (p.kegEnd l cause) := by
  unfold Plant.kegEnd; (repeat' split) <;> simp (maxDischargeDepth := 40) +contextual [h]
@[simp] theorem Plant.kegRemoved_noted {w p : Plant} (h : w.TapNoted p) (i : Nat) : w.TapNoted (p.kegRemoved i) := by
  unfold Plant.kegRemoved
  repeat' (first
    | with_reducible assumption | with_reducible rfl | (simp (maxDischargeDepth := 40) +contextual [h]; done) | split
    | (with_reducible refine Plant.TapNoted.foldl ?_ _ (fun q a hq => ?_) _)
    | (with_reducible refine Plant.modTap_noted ?_ _ _ (fun t => ?_))
    | (with_reducible refine Plant.changeTap_noted ?_ _ _ (fun t => ?_)) | (simp (maxDischargeDepth := 40) +contextual [*]; done)
    | dsimp only)
@[simp] theorem Plant.fobEvent_noted {w p : Plant} (h : w.TapNoted p) (l : Nat) (tripped : Bool) : w.TapNoted (p.fobEvent l tripped) := by
  unfold Plant.fobEvent; (repeat' split) <;> simp (maxDischargeDepth := 40) +contextual [h]
@[simp] theorem Plant.takeStandbys_noted {w p : Plant} (h : w.TapNoted p) (a : Nat) (gone : List Nat) (x : Line) :
    w.TapNoted (p.takeStandbys a gone x) := by
  unfold Plant.takeStandbys
  refine Plant.TapNoted.foldl h _ (fun q k hq => ?_) _
  (repeat' split) <;> simp (maxDischargeDepth := 40) +contextual [hq]
@[simp] theorem Plant.removalAt_noted {w p : Plant} (h : w.TapNoted p) (a : Nat) (gone : List Nat) (k : Nat) :
    w.TapNoted (p.removalAt a gone k) := by
  unfold Plant.removalAt; (repeat' split) <;> simp (maxDischargeDepth := 40) +contextual [h]
@[simp] theorem Plant.cellarStatus_noted {w p : Plant} (h : w.TapNoted p) (a : Nat) (kegs : Vector Bool 16)
    (fobs : Vector Bool 12) (old : Option (Vector Bool 16 × Vector Bool 12)) :
    w.TapNoted (p.cellarStatus a kegs fobs old) := by
  unfold Plant.cellarStatus
  repeat' (first
    | with_reducible assumption | with_reducible rfl | (simp (maxDischargeDepth := 40) +contextual [h]; done) | split
    | (with_reducible refine Plant.TapNoted.foldl ?_ _ (fun q a hq => ?_) _)
    | (with_reducible refine Plant.modTap_noted ?_ _ _ (fun t => ?_))
    | (with_reducible refine Plant.changeTap_noted ?_ _ _ (fun t => ?_)) | (simp (maxDischargeDepth := 40) +contextual [*]; done)
    | dsimp only)
@[simp] theorem Plant.cellarLoss_noted {w p : Plant} (h : w.TapNoted p) (a : Nat) : w.TapNoted (p.cellarLoss a) := by
  unfold Plant.cellarLoss; simp (maxDischargeDepth := 40) +contextual [h]
@[simp] theorem Plant.cellarJoin_noted {w p : Plant} (h : w.TapNoted p) (a : Nat) (kegs : Vector Bool 16) (fobs : Vector Bool 12) :
    w.TapNoted (p.cellarJoin a kegs fobs) := by
  unfold Plant.cellarJoin
  repeat' (first
    | with_reducible assumption | with_reducible rfl | (simp (maxDischargeDepth := 40) +contextual [h]; done) | split
    | (with_reducible refine Plant.TapNoted.foldl ?_ _ (fun q a hq => ?_) _)
    | (with_reducible refine Plant.modTap_noted ?_ _ _ (fun t => ?_))
    | (with_reducible refine Plant.changeTap_noted ?_ _ _ (fun t => ?_)) | (simp (maxDischargeDepth := 40) +contextual [*]; done)
    | dsimp only)
/-! ### Bus -/

@[simp] theorem Plant.modSbc_noted {w p : Plant} (h : w.TapNoted p) (f : Sbc → Sbc) : w.TapNoted (p.modSbc f) := h.same (by simp) (by simp)
@[simp] theorem Plant.modStation_noted {w p : Plant} (h : w.TapNoted p) (a : Nat) (f : Station → Station) :
    w.TapNoted (p.modStation a f) := h.same (by simp) (by simp)
@[simp] theorem Plant.sendDescribe_noted {w p : Plant} (h : w.TapNoted p) (a : Nat) (why : Purpose) :
    w.TapNoted (p.sendDescribe a why) := h.same (by simp) (by simp)
@[simp] theorem Plant.sendPoll_noted {w p : Plant} (h : w.TapNoted p) (a : Nat) : w.TapNoted (p.sendPoll a) := h.same (by simp) (by simp)
@[simp] theorem Plant.beginJoin_noted {w p : Plant} (h : w.TapNoted p) (a : Nat) (was : JoinedFrom) :
    w.TapNoted (p.beginJoin a was) := h.same (by simp) (by simp)
@[simp] theorem Plant.joinFrame_noted {w p : Plant} (h : w.TapNoted p) (a : Nat) : w.TapNoted (p.joinFrame a) := h.same (by simp) (by simp)
@[simp] theorem Plant.clearDue_noted {w p : Plant} (h : w.TapNoted p) (a : Nat) : w.TapNoted (p.clearDue a) := h.same (by simp) (by simp)
@[simp] theorem Plant.visit_noted {w p : Plant} (h : w.TapNoted p) (a : Nat) : w.TapNoted (p.visit a) := h.same (by simp) (by simp)
@[simp] theorem Plant.roundEnd_noted {w p : Plant} (h : w.TapNoted p) : w.TapNoted (p.roundEnd) := h.same (by simp) (by simp)
@[simp] theorem Plant.serve_noted {w p : Plant} (h : w.TapNoted p) (a : Nat) : w.TapNoted (p.serve a) := h.same (by simp) (by simp)
@[simp] theorem Plant.endExchange_noted {w p : Plant} (h : w.TapNoted p) : w.TapNoted (p.endExchange) := h.same (by simp) (by simp)
@[simp] theorem Plant.raiseStation_noted {w p : Plant} (h : w.TapNoted p) (a second : Nat) : w.TapNoted (p.raiseStation a second) := by
  unfold Plant.raiseStation; simp (maxDischargeDepth := 40) +contextual [h]
@[simp] theorem Plant.lossReport_noted {w p : Plant} (h : w.TapNoted p) (a : Nat) : w.TapNoted (p.lossReport a) := by
  unfold Plant.lossReport; (repeat' split) <;> simp (maxDischargeDepth := 40) +contextual [h]
@[simp] theorem Plant.joinReport_noted {w p : Plant} (h : w.TapNoted p) (a : Nat) (image : InputImage) (restarted holdExpired : Bool) :
    w.TapNoted (p.joinReport a image restarted holdExpired) := by
  unfold Plant.joinReport
  repeat' (first
    | with_reducible assumption | with_reducible rfl | (simp (maxDischargeDepth := 40) +contextual [h]; done) | split
    | (with_reducible refine Plant.TapNoted.foldl ?_ _ (fun q a hq => ?_) _)
    | (with_reducible refine Plant.modTap_noted ?_ _ _ (fun t => ?_))
    | (with_reducible refine Plant.changeTap_noted ?_ _ _ (fun t => ?_)) | (simp (maxDischargeDepth := 40) +contextual [*]; done)
    | dsimp only)
@[simp] theorem Plant.statusArrival_noted {w p : Plant} (h : w.TapNoted p) (a : Nat) (image : InputImage)
    (old : Option InputImage) (holdExpired : Bool) :
    w.TapNoted (p.statusArrival a image old holdExpired) := by
  unfold Plant.statusArrival
  repeat' (first
    | with_reducible assumption | with_reducible rfl | (simp (maxDischargeDepth := 40) +contextual [h]; done) | split
    | (with_reducible refine Plant.TapNoted.foldl ?_ _ (fun q a hq => ?_) _)
    | (with_reducible refine Plant.modTap_noted ?_ _ _ (fun t => ?_))
    | (with_reducible refine Plant.changeTap_noted ?_ _ _ (fun t => ?_)) | (simp (maxDischargeDepth := 40) +contextual [*]; done)
    | dsimp only)
@[simp] theorem Plant.loseByMisses_noted {w p : Plant} (h : w.TapNoted p) (a : Nat) : w.TapNoted (p.loseByMisses a) := by
  unfold Plant.loseByMisses; simp (maxDischargeDepth := 40) +contextual [h]
@[simp] theorem Plant.restartStation_noted {w p : Plant} (h : w.TapNoted p) (a : Nat) : w.TapNoted (p.restartStation a) := by
  unfold Plant.restartStation; simp (maxDischargeDepth := 40) +contextual [h]
@[simp] theorem Plant.takeMiss_noted {w p : Plant} (h : w.TapNoted p) (x : Exchange) (characters : Bool) :
    w.TapNoted (p.takeMiss x characters) := by
  unfold Plant.takeMiss
  repeat' (first
    | with_reducible assumption | with_reducible rfl | (simp (maxDischargeDepth := 40) +contextual [h]; done) | split
    | (with_reducible refine Plant.TapNoted.foldl ?_ _ (fun q a hq => ?_) _)
    | (with_reducible refine Plant.modTap_noted ?_ _ _ (fun t => ?_))
    | (with_reducible refine Plant.changeTap_noted ?_ _ _ (fun t => ?_)) | (simp (maxDischargeDepth := 40) +contextual [*]; done)
    | dsimp only)
@[simp] theorem Plant.joinStatus_noted {w p : Plant} (h : w.TapNoted p) (a : Nat) (r : StatusReply) : w.TapNoted (p.joinStatus a r) := by
  unfold Plant.joinStatus; (repeat' split) <;> simp (maxDischargeDepth := 40) +contextual [h]
@[simp] theorem Plant.raiseTrace_noted {w p : Plant} (h : w.TapNoted p) (a : Nat) (image : InputImage) :
    w.TapNoted (p.raiseTrace a image) := by
  unfold Plant.raiseTrace; simp (maxDischargeDepth := 40) +contextual [h]
@[simp] theorem Plant.activeStatus_noted {w p : Plant} (h : w.TapNoted p) (a : Nat) (r : StatusReply) :
    w.TapNoted (p.activeStatus a r) := by
  unfold Plant.activeStatus; (repeat' split) <;> simp (maxDischargeDepth := 40) +contextual [h]
@[simp] theorem Plant.takeStatus_noted {w p : Plant} (h : w.TapNoted p) (a : Nat) (r : StatusReply) : w.TapNoted (p.takeStatus a r) := by
  unfold Plant.takeStatus
  repeat' (first
    | with_reducible assumption | with_reducible rfl | (simp (maxDischargeDepth := 40) +contextual [h]; done) | split
    | (with_reducible refine Plant.TapNoted.foldl ?_ _ (fun q a hq => ?_) _)
    | (with_reducible refine Plant.modTap_noted ?_ _ _ (fun t => ?_))
    | (with_reducible refine Plant.changeTap_noted ?_ _ _ (fun t => ?_)) | (simp (maxDischargeDepth := 40) +contextual [*]; done)
    | dsimp only)
@[simp] theorem Plant.takeDescriptor_noted {w p : Plant} (h : w.TapNoted p) (a : Nat) (d : Descriptor) :
    w.TapNoted (p.takeDescriptor a d) := by
  unfold Plant.takeDescriptor; (repeat' split) <;> simp (maxDischargeDepth := 40) +contextual [h]
@[simp] theorem Plant.scanDescriptor_noted {w p : Plant} (h : w.TapNoted p) (a : Nat) (d : Descriptor) :
    w.TapNoted (p.scanDescriptor a d) := by
  unfold Plant.scanDescriptor; simp (maxDischargeDepth := 40) +contextual [h]
@[simp] theorem Plant.sendCloseAll_noted {w p : Plant} (h : w.TapNoted p) : w.TapNoted (p.sendCloseAll) := h.same (by simp) (by simp)
/-! ### BusEvents -/

@[simp] theorem Plant.nextVisit_noted {w p : Plant} (h : w.TapNoted p) : w.TapNoted (p.nextVisit) := h.same (by simp) (by simp)
@[simp] theorem Plant.attentionCall_noted {w p : Plant} (h : w.TapNoted p) (k : Nat) (contenders : List (BitVec 5)) :
    w.TapNoted (p.attentionCall k contenders) := h.same (by simp) (by simp)
@[simp] theorem Plant.missExchange_noted {w p : Plant} (h : w.TapNoted p) (x : Exchange) (characters : Bool) :
    w.TapNoted (p.missExchange x characters) := by
  unfold Plant.missExchange; simp (maxDischargeDepth := 40) +contextual [h]
@[simp] theorem Plant.statusReply_noted {w p : Plant} (h : w.TapNoted p) (x : Exchange) (r : StatusReply) :
    w.TapNoted (p.statusReply x r) := by
  unfold Plant.statusReply; (repeat' split) <;> simp (maxDischargeDepth := 40) +contextual [h]
@[simp] theorem Plant.descriptorReply_noted {w p : Plant} (h : w.TapNoted p) (x : Exchange) (address : Nat) (d : Descriptor) :
    w.TapNoted (p.descriptorReply x address d) := by
  unfold Plant.descriptorReply; (repeat' split) <;> simp (maxDischargeDepth := 40) +contextual [h]
/-! ### BusRequests -/

@[simp] theorem Plant.loseRedefined_noted {w p : Plant} (h : w.TapNoted p) (a : Nat) : w.TapNoted (p.loseRedefined a) := by
  unfold Plant.loseRedefined; (repeat' split) <;> simp (maxDischargeDepth := 40) +contextual [h]
@[simp] theorem Plant.rebind_noted {w p : Plant} (h : w.TapNoted p) (a : Nat) (d : StationDef) : w.TapNoted (p.rebind a d) := by
  unfold Plant.rebind; (repeat' split) <;> simp (maxDischargeDepth := 40) +contextual [h]
@[simp] theorem Plant.redefineStation_noted {w p : Plant} (h : w.TapNoted p) (a : Nat) (d : StationDef) :
    w.TapNoted (p.redefineStation a d) := by
  unfold Plant.redefineStation; (repeat' split) <;> simp (maxDischargeDepth := 40) +contextual [h]
@[simp] theorem Plant.keepStation_noted {w p : Plant} (h : w.TapNoted p) (a : Nat) :
    w.TapNoted (p.keepStation a) := h.same (by simp) (by simp)
@[simp] theorem Plant.traceStation_noted {w p : Plant} (h : w.TapNoted p) (address : Nat) (on : Bool) :
    w.TapNoted (p.traceStation address on) := h.same (by simp) (by simp)
/-! ### CellarRequests -/

@[simp] theorem Plant.forceChangeover_noted {w p : Plant} (h : w.TapNoted p) (line : Nat) : w.TapNoted (p.forceChangeover line) := by
  unfold Plant.forceChangeover; (repeat' split) <;> simp (maxDischargeDepth := 40) +contextual [h]
@[simp] theorem Plant.lineOut_noted {w p : Plant} (h : w.TapNoted p) (line : Nat) : w.TapNoted (p.lineOut line) := by
  unfold Plant.lineOut; (repeat' split) <;> simp (maxDischargeDepth := 40) +contextual [h]
@[simp] theorem Plant.lineIn_noted {w p : Plant} (h : w.TapNoted p) (line : Nat) : w.TapNoted (p.lineIn line) := by
  unfold Plant.lineIn; (repeat' split) <;> simp (maxDischargeDepth := 40) +contextual [h]
/-! ### CleaningRequests -/

@[simp] theorem Plant.addJob_noted {w p : Plant} (h : w.TapNoted p) (id trunk : Nat) (lines : List Nat) (programme : Nat) :
    w.TapNoted (p.addJob id trunk lines programme) := by
  unfold Plant.addJob; simp (maxDischargeDepth := 40) +contextual [h]
@[simp] theorem Plant.hostAbort_noted {w p : Plant} (h : w.TapNoted p) (j : Job) : w.TapNoted (p.hostAbort j) := by
  unfold Plant.hostAbort; (repeat' split) <;> simp (maxDischargeDepth := 40) +contextual [h]
/-! ### CoolingRequests -/

@[simp] theorem Plant.defineTrunk_noted {w p : Plant} (h : w.TapNoted p) (i : Nat) (use : Bool) (warm hot : Int) :
    w.TapNoted (p.defineTrunk i use warm hot) := by
  unfold Plant.defineTrunk; simp (maxDischargeDepth := 40) +contextual [h]
/-! ### TapRequests -/

@[simp] theorem Plant.readViews_noted {w p : Plant} (h : w.TapNoted p) (l : Nat) : w.TapNoted (p.readViews l) := by
  unfold Plant.readViews; (repeat' split) <;> simp (maxDischargeDepth := 40) +contextual [h]
/-! ### JournalRequests -/

@[simp] theorem Plant.freeEntries_noted {w p : Plant} (h : w.TapNoted p) (freed : Nat) :
    w.TapNoted (p.freeEntries freed) := h.same (by simp) (by simp)
@[simp] theorem Plant.spaceEvent_noted {w p : Plant} (h : w.TapNoted p) : w.TapNoted (p.spaceEvent) := by
  unfold Plant.spaceEvent; (repeat' split) <;> simp (maxDischargeDepth := 40) +contextual [h]
@[simp] theorem Plant.rearm_noted {w p : Plant} (h : w.TapNoted p) (before : Nat) :
    w.TapNoted (p.rearm before) := h.same (by simp) (by simp)
@[simp] theorem Plant.release_noted {w p : Plant} (h : w.TapNoted p) (q : Word32) : w.TapNoted (p.release q) := by
  unfold Plant.release; (repeat' split) <;> simp (maxDischargeDepth := 40) +contextual [h]
@[simp] theorem Plant.leaks_noted {w p : Plant} (h : w.TapNoted p) : w.TapNoted (p.leaks) := by
  unfold Plant.leaks
  have hq : w.TapNoted (p.leakers.foldl (fun r i => r.record (.leak i (p.tap i).creep)) p) := by simp (maxDischargeDepth := 40) +contextual [h]
  generalize p.leakers.foldl _ p = q at hq ⊢
  refine hq.of_states (fun i => ?_) ⟨[], by simp⟩
  simp only [Plant.tap, Vector.getElem?_map, Option.getD]
  cases q.pe.taps[i]? <;> rfl
@[simp] theorem Plant.openPeriod_noted {w p : Plant} (h : w.TapNoted p) : w.TapNoted (p.openPeriod) := h.same (by simp) (by simp)
@[simp] theorem Plant.closePeriod_noted {w p : Plant} (h : w.TapNoted p) : w.TapNoted (p.closePeriod) := by
  unfold Plant.closePeriod; simp (maxDischargeDepth := 40) +contextual [h]
/-! ### Modes -/

@[simp] theorem Plant.modMsc_noted {w p : Plant} (h : w.TapNoted p) (f : Msc → Msc) : w.TapNoted (p.modMsc f) := h.same (by simp) (by simp)
@[simp] theorem Plant.lineLive_noted {w p : Plant} (h : w.TapNoted p) (l : Nat) : w.TapNoted (p.lineLive l) := by
  unfold Plant.lineLive; (repeat' split) <;> simp (maxDischargeDepth := 40) +contextual [h]
@[simp] theorem Plant.goLive_noted {w p : Plant} (h : w.TapNoted p) : w.TapNoted (p.goLive) := by
  unfold Plant.goLive
  dsimp only
  refine Plant.coolingLive_noted (Plant.TapNoted.foldl ?_ _ (fun q l hq => Plant.lineLive_noted hq l) _)
  split
  · exact Plant.record_noted (Plant.record_noted (Plant.noted_au (Plant.noted_msc h _) _) _) _
  · exact Plant.record_noted (Plant.noted_au (Plant.noted_msc h _) _) _
@[simp] theorem Plant.raiseStop_noted {w p : Plant} (h : w.TapNoted p) : w.TapNoted (p.raiseStop) := by
  unfold Plant.raiseStop; (repeat' split) <;> simp (maxDischargeDepth := 40) +contextual [h]
@[simp] theorem Plant.recordStop_noted {w p : Plant} (h : w.TapNoted p) (onset : Bool) (source : StopSource) :
    w.TapNoted (p.recordStop onset source) := by
  unfold Plant.recordStop; (repeat' split) <;> simp (maxDischargeDepth := 40) +contextual [h]
@[simp] theorem Plant.stopOnset_noted {w p : Plant} (h : w.TapNoted p) (st : StopState) (source : StopSource) :
    w.TapNoted (p.stopOnset st source) := by
  unfold Plant.stopOnset; simp (maxDischargeDepth := 40) +contextual [h]
@[simp] theorem Plant.stopByRequest_noted {w p : Plant} (h : w.TapNoted p) : w.TapNoted (p.stopByRequest) := by
  unfold Plant.stopByRequest; (repeat' split) <;> simp (maxDischargeDepth := 40) +contextual [h]
@[simp] theorem Plant.stopRelease_noted {w p : Plant} (h : w.TapNoted p) : w.TapNoted (p.stopRelease) := by
  unfold Plant.stopRelease
  exact Plant.noted_cs (by simp (maxDischargeDepth := 40) +contextual [h]) _
@[simp] theorem Plant.pinFall_noted {w p : Plant} (h : w.TapNoted p) : w.TapNoted (p.pinFall) := by
  unfold Plant.pinFall; (repeat' split) <;> simp (maxDischargeDepth := 40) +contextual [h]
@[simp] theorem Plant.pinRise_noted {w p : Plant} (h : w.TapNoted p) : w.TapNoted (p.pinRise) := by
  unfold Plant.pinRise; simp (maxDischargeDepth := 40) +contextual [h]
/-! ### Link -/

@[simp] theorem Plant.resetCursor_noted {w p : Plant} (h : w.TapNoted p) : w.TapNoted (p.resetCursor) := h.same (by simp) (by simp)
/-! ### Timers -/

@[simp] theorem Plant.reach_noted {w p : Plant} (h : w.TapNoted p) (d : Nat) : w.TapNoted (p.reach d) := h.same (by simp) (by simp)
@[simp] theorem Plant.dropCalibration_noted {w p : Plant} (h : w.TapNoted p) (tap : Nat) : w.TapNoted (p.dropCalibration tap) := by
  unfold Plant.dropCalibration; simp (maxDischargeDepth := 40) +contextual [h]
@[simp] theorem Plant.switchPhase_noted {w p : Plant} (h : w.TapNoted p) (job : Nat) : w.TapNoted (p.switchPhase job) := by
  unfold Plant.switchPhase Plant.withJob
  dsimp only
  (repeat' split) <;> simp (maxDischargeDepth := 40) +contextual [h]
/-! ### Tick -/

@[simp] theorem Plant.pass_noted {w p : Plant} (h : w.TapNoted p) : w.TapNoted (p.pass) := h.same (by simp) (by simp)

end Sys2Proof.Machine
end

