-- ==== Sys2Proof/Tests/Slice0.lean ====
section
/-!
SUPPORT. The model's own tests: ill-formed commands, and for each statement a state and operands that meet its hypotheses. A
request's test also shows that the request passes every check there.
-/

namespace Sys2Proof.Tests

open Sys2Proof.Machine
set_option Elab.async false

/-! ### Ill-formed commands -/

def hdr : ReqHdr := ⟨7#8, 0, none⟩

/-- One well-formed command for the ill-formed ones below to differ from. -/
theorem test_wellFormed :
    WellFormed.instr (.defineProduct hdr 3 4410 [0x41#8] none 500) = true
      ∧ WellFormed.instr (.setCooling hdr (some (-15)) none none .absent none none) = true := by decide +kernel

theorem test_illFormed_header :
    WellFormed.instr (.status ⟨7#8, 255, none⟩) = false ∧ WellFormed.instr (.status ⟨7#8, 0, some 1⟩) = false
      ∧ WellFormed.instr (.status ⟨7#8, 0, some 251⟩) = false := by decide +kernel

/-- At most the length byte, the body and the CRC of a frame are noisy: 253 bytes of the longest. -/
theorem test_illFormed_noisy :
    WellFormed.instr (.overrun ⟨7#8, 253, none⟩) = true ∧ WellFormed.instr (.overrun ⟨7#8, 254, none⟩) = false
      ∧ WellFormed.instr (.status ⟨7#8, 5, none⟩) = true ∧ WellFormed.instr (.status ⟨7#8, 6, none⟩) = false
      ∧ WellFormed.instr (.status ⟨7#8, 253, some 250⟩) = true ∧ WellFormed.instr (.status ⟨7#8, 254, some 250⟩) = false
      ∧ WellFormed.instr (.defineProduct ⟨7#8, Kind.defineProduct.layout + 3, none⟩ 3 4410 [] none 500) = true
      ∧ WellFormed.instr (.defineProduct ⟨7#8, Kind.defineProduct.layout + 4, none⟩ 3 4410 [] none 500) = false
      ∧ WellFormed.instr (.requestClean ⟨7#8, 9, none⟩ 2 [7] 0) = true
      ∧ WellFormed.instr (.requestClean ⟨7#8, 10, none⟩ 2 [7] 0) = false := by decide +kernel

theorem test_illFormed_widths :
    WellFormed.instr (.unloadSource hdr 256) = false ∧ WellFormed.instr (.setTopupWindow hdr 65536) = false
      ∧ WellFormed.instr (.setLink hdr 4294967296) = false
      ∧ WellFormed.instr (.defineTrunk hdr 0 .absent (some 32767) none) = false := by decide +kernel

theorem test_illFormed_optionals :
    WellFormed.instr (.defineTap hdr 0 1 0 (some 255) .absent none none) = false
      ∧ WellFormed.instr (.setTap hdr 0 (.bad 1) none none) = false ∧ WellFormed.instr (.setTap hdr 0 (.bad 255) none none) = false
      ∧ WellFormed.instr (.readJournal hdr (some 0xFFFFFFFF#32) 1) = false := by decide +kernel

theorem test_illFormed_lists :
    WellFormed.instr (.defineProduct hdr 3 4410 (List.replicate 13 0x41#8) none 500) = false
      ∧ WellFormed.instr (.defineProgramme hdr 0 (some [⟨.bad 4, .absent, none, none, none, none, .absent, none⟩])) = false
      ∧ WellFormed.instr (.requestClean hdr 0 [256] 0) = false
      ∧ WellFormed.instr (.attentionCall (List.replicate 31 1#5)) = false := by decide +kernel

/-- The spaces that pad a name are no part of it (log 84). -/
theorem test_illFormed_name :
    WellFormed.instr (.defineProduct hdr 3 4410 [0x41#8, 0x20#8] none 500) = false
      ∧ WellFormed.instr (.defineProduct hdr 3 4410 [0x41#8, 0x20#8, 0x42#8] none 500) = true := by decide +kernel

theorem test_illFormed_replies :
    WellFormed.instr (.statusAccepted ⟨1, false, false, false, .tap []⟩) = false
      ∧ WellFormed.instr (.descriptorAccepted 1 ⟨.val .tap, false, 256, 0, 0, 0, 0, 0⟩) = false
      ∧ WellFormed.instr (.unknownKind hdr 44#8) = false := by decide +kernel

theorem test_illFormed_timers :
    WellFormed.instr (.changeoverTimeout 48) = false ∧ WellFormed.instr (.validityTimerExpiry 160) = false
      ∧ WellFormed.instr (.pourLimitExpiry 96) = false ∧ WellFormed.instr (.pumpTimerExpiry 8) = false
      ∧ WellFormed.instr (.capTimerExpiry 0) = false ∧ WellFormed.instr (.capTimerExpiry 255) = false := by decide +kernel

/-! ### A small machine -/

def inMode (m : Mode) (f : Plant → Plant) : State := { State.reset with plant := f (Plant.reset.modMsc fun x => { x with mode := m }) }

def station (k : StationType) (taps block : Nat) (inputs : Option InputImage) : Station :=
  { Station.unused with kind := some k, taps := taps, block := block, state := .active, inputs := inputs }

def cellarImage : InputImage := .cellar (Vector.replicate 16 true) (Vector.replicate 12 false)
def coolingImage : InputImage :=
  .cooling (-20) (Vector.replicate 3 false) (Vector.replicate 3 false) (Vector.replicate 8 20) (Vector.replicate 8 true)

def keg : Keg := ⟨3, 50000, 0, 77#32, 0#32, 0⟩
def source (k : Nat) (st : SourceState) (line : Option Nat) : Source :=
  ⟨some (26, k), st, some keg, line, false, false, 0⟩
def line (st : LineState) (c : Content) (chain : List Nat) : Line :=
  ⟨3, 2, 26, 7, 1000, true, st, c, false, none, chain, none, false, ⟨some 0, .supply, false⟩⟩
def tap (st : TapState) : Tap := { Tap.fresh with station := some (9, 0), line := some 7, state := st, count := some 100#24 }
def ticket (st : TicketState) : Ticket := ⟨st, 55#32, 9, 3, 500, 500, 0#32, 600#32, none, .running 600000, .off⟩

/-- Stations 2, 3, 9 and 26, product 3, trunk 2, line 7 with positions 12 and 13, tap 30, ticket 0 and programme 0. -/
def bar (p : Plant) : Plant :=
  ((((((((((((p.setStation 2 (station .cooling 0 0 (some coolingImage))).setStation 3 (station .cleaning 0 0 none)).setStation 9
    (station .tap 2 0 none)).setStation 26 (station .cellar 0 0 (some cellarImage))).setProduct 3
    (some ⟨4410, [0x41#8], 15, 500⟩)).setTrunk 2 { Trunk.fresh with inUse := true, state := .normal }).setSource 12
    (source 0 .onLine (some 7))).setSource 13 (source 1 .loaded (some 7))).setLine 7 (line .serving .beer [12, 13])).setLineView 7
    ⟨.serving, 2, false⟩).setTap 30 (tap .idle)).setTicket 0 (some (ticket .queued))).setQueue 9 [0]

def live (f : Plant → Plant) : State := inMode .live fun p => f (bar p)
def config (f : Plant → Plant) : State := inMode .config fun p => f (bar p)

/-- The result of the reply that a request has been answered with. -/
def resultOf : Host.Outcome State Fault Refusal → Option Result
  | .next t => t.hl.replies.getLast?.map (·.result)
  | _ => none

def goesOn : Host.Outcome State Fault Refusal → Bool
  | .next _ => true
  | _ => false

/-- The request reaches its owner and passes every check. -/
abbrev Taken (k : RequestKind) (c : Instr) (s : State) : Prop := Ready k hdr s ∧ resultOf (exec c s) = some .ok

def pour : Pour :=
  ⟨.normal, 0#32, 0, 100#24, none, none, none, some 12, .cold, 0, none, false, .free, 10000, some 20000, none⟩
def pouring (p : Plant) : Plant := p.setTap 30 { tap .pouring with pour := some pour }
def ending (p : Plant) : Plant :=
  p.setTap 30 { tap .ending with pour := some { pour with cause := some .release, limitEnd := none, endingEnd := some 2000 } }

def job (st : JobState) (timer : Option (JobTimer × Nat)) : Job :=
  ⟨1, 2, [7], 0, st, none, some 1, 0, some 0, 0#32, false, false, none, none, .normal, none, false, [7], [30], timer, none, none, none,
    0, 0⟩
def programme : Programme := ⟨[.push .water 10, .pulse .water 60, .prove .water 500 60 none], true⟩
def cleaning (j : Job) (p : Plant) : Plant :=
  ((({ p with cs := { p.cs with jobs := [j], tanks := some (Vector.replicate 3 false) } }).setProgramme 0 (some programme)).setCircuit 0
    { Circuit.fresh with state := .busy, job := some 1, out := { CircuitOut.idle with trunk := some 2 } }).setLine 7
    { line .cleaning .water [12, 13] with job := some 1 }

def addressed (a : Nat) (why : Purpose) (p : Plant) : Plant := p.modSbc fun b => { b with exchange := some ⟨a, why⟩ }
def inState (a : Nat) (f : Station → Station) (p : Plant) : Plant := p.modStation a f

/-- The next state of an outcome. -/
def after : Host.Outcome State Fault Refusal → State
  | .next t => t
  | _ => State.reset
def at_ (t : Nat) (p : Plant) : Plant := p.modMsc fun m => { m with timeBase := t }

/-! ### The machine and the invariants -/

theorem test_step_takes : ∃ s : State, s.pending = [Instr.gapError, .linkReset] ∧ step s = exec .gapError { s with pending := [.linkReset] } :=
  ⟨{ State.reset with pending := [.gapError, .linkReset] }, rfl, rfl⟩

theorem test_idle_timers :
    let s := live fun p => (pouring p).modCc fun c => { c with graceEnd := some 1 }
    s.pending = [] ∧ (s.plant.ticket 0).map (·.validity) = some (.running 600000)
      ∧ ((s.plant.tap 30).pour.bind (·.limitEnd)) = some 20000 ∧ s.plant.cc.graceEnd = some 1
      ∧ s.plant.pass.dueCommands = [.graceTimerExpiry] := by decide +kernel

/-- Every timer's command stands at its end, 1 ms before it none; a phase that ends with its step has none (log 53). -/
theorem test_dueCommands :
    let timers : List (JobTimer × Nat) := [(.draining, 100000), (.cap, 100000), (.push, 100000), (.duration, 100000), (.prove, 100000),
      (.pause, 100000), (.beerReturn, 100000), (.flush, 100000), (.duration, 100001)]
    let jobs := (List.range 9).map fun k =>
      { job .running timers[k]? with id := k + 1, phase := if k = 3 ∨ k = 8 then some (true, 100000) else none }
    let q : Plant := ((((((((((live id).plant.modMsc fun m => { m with clockSince := 99000 }).setLine 47
      { line .changeover .gas [12] with change := some ⟨12, none, 10000, none⟩ }).setLine 0
      { line .serving .beer [12] with change := some ⟨12, none, 10000, some 95000⟩ }).setTicket 0
      (some { ticket .part with validity := .running 100000 })).setTicket 159
      (some { ticket .part with validity := .out, topup := .running 100000 })).setTap 95
      { tap .pouring with
        pour := some { pour with limitEnd := some 100000 }, noTicket := some 100000
        calibration := some (.armed 500 0#32 100000) }).setTap 0
      { tap .ending with
        pour := some { pour with limitEnd := none, endingEnd := some 100000 }
        late := some ⟨1#32, 0#24, 0#24, 0, 10000, none, 0, .free, none, 40000⟩
        calibration := some (.awaiting 0 0 0 0 0#32 100000) }).setTrunk 7
      { Trunk.fresh with pumpEnd := some 100000 }).modCc fun c =>
        { c with degradeEnd := some 100000, window := [(40000, 1)], hintEnd := some 100000, graceEnd := some 100000 })
    let p := fun now => at_ now { q with cs := { q.cs with jobs := jobs } }
    (p 99999).dueCommands = []
      ∧ (p 100000).dueCommands = [.partClockAdvance, .changeoverTimeout 47, .retripWindowClose 0, .validityTimerExpiry 0, .topupTimerExpiry 159,
          .noTicketDisplayEnd 95, .pourLimitExpiry 95, .endingTimerExpiry 0, .lateCountExpiry 0, .armTimerExpiry 95, .resultTimerExpiry 0,
          .degradeTimerExpiry, .pourLoadAgeOut, .surgeHintEnd, .pumpTimerExpiry 7, .graceTimerExpiry, .drainingLimitExpiry 1, .capTimerExpiry 2,
          .pushLimitExpiry 3, .stepDurationEnd 4, .proveLimitExpiry 5, .pauseTimerExpiry 6, .returnTimerExpiry 7, .flushLimitExpiry 8,
          .pulsePhaseSwitch 9] := by decide +kernel

/-- A state in which a step takes a command; it keeps its shape as a numeral term. -/
def waiting : State := { State.reset with pending := [.gapError] }

theorem test_waiting_steps : ∃ t, step waiting = .next t := ⟨_, rfl⟩

theorem read_replicate {α : Type} (n i : Nat) (d : α) : ((Vector.replicate n d)[i]?).getD d = d := by
  rw [Vector.getElem?_replicate]; split <;> rfl

theorem test_waiting_hl : HlInv waiting ∧ StopInv waiting := by decide +kernel
theorem test_waiting_journal : JournalInv waiting := by decide +kernel
theorem test_waiting_tickets : TicketInv waiting := by decide +kernel
theorem test_waiting_lines : LineInv waiting := by
  have hl : ∀ l, waiting.plant.line l = none := fun l => read_replicate _ _ _
  exact ⟨by simp [hl], fun _ => ⟨rfl, by simp [hl]⟩⟩
theorem test_waiting_cooling : CoolingInv waiting := by
  refine ⟨by decide, by decide, by decide, by decide, List.Perm.refl _, by decide⟩

/-! ### The host link -/

theorem test_judged :
    LinkReady State.reset ∧ Quiet State.reset ∧ (0#8).toNat = 0 ∧ 44 < (45#8).toNat
      ∧ requestOf (.scanBus ⟨7#8, 0, some 3⟩) = some (Kind.scanBus, ⟨7#8, 0, some 3⟩) ∧ 3 ≠ Kind.scanBus.layout
      ∧ Kind.closePeriod.takenIn State.reset.plant.live = false := by decide +kernel

def full : State := { State.reset with hl := { Hl.reset with replies := List.replicate 2 ⟨0x80#8, 0#8, true, .ok, 0, [], none⟩ } }

theorem test_overrun :
    full.hl.rxdLow = false ∧ 2 ≤ full.hl.replies.length ∧ requestOf (.stop hdr) = some (Kind.stop, hdr) := by decide +kernel

def receiving (r : Receiver) : Hl := { Hl.reset with receiver := r }
def rx (v : Byte) (framing : Bool) : RxByte := ⟨v, false, framing⟩

theorem test_receiver :
    (receiving .length).receiver ≠ .hunting ∧ (rx 2#8 true).framing = true ∧ (rx 250#8 false).framing = false
      ∧ ((receiving .hunting).takeByte (rx 0xA5#8 false)).receiver = .length
      ∧ ((receiving .length).takeByte (rx 251#8 false)).counts.lengthErrors = 1
      ∧ ((receiving (.body (rx 2#8 false) [rx 1#8 false])).takeByte (rx 9#8 false)).receiver
          = .crc (rx 2#8 false) [rx 1#8 false, rx 9#8 false] none
      ∧ ((receiving (.crc (rx 2#8 false) [] (some (rx 0#8 false)))).takeByte (rx 0#8 false)).counts.crcErrors = 1 := by decide +kernel

/-- The CRC-16 of "123456789" with this polynomial and initial value is 29B1. -/
theorem test_crc :
    crc16 [0x31#8, 0x32#8, 0x33#8, 0x34#8, 0x35#8, 0x36#8, 0x37#8, 0x38#8, 0x39#8] = 0x29B1#16 := by decide +kernel

theorem test_linkReset : State.reset.hl.rxdLow = false ∧ ({ State.reset with hl := { Hl.reset with rxdLow := true } } : State).hl.rxdLow = true := by
  decide

theorem test_setLink :
    Taken Kind.setLink (.setLink hdr 460800) State.reset ∧ rateOf 460800 = some .r460800 ∧ rateOf 9600 = none
      ∧ ∃ r : Reply, r.made = true ∧ r.newRate = some .r57600 := by
  refine ⟨by decide +kernel, by decide, by decide, ⟨0#8, 0#8, true, .ok, 0, [], some .r57600⟩, rfl, rfl⟩

theorem test_identify_status :
    Taken Kind.identify (.identify hdr) State.reset ∧ Taken Kind.status (.status hdr) State.reset := by decide +kernel

def reading : State := { State.reset with hl := { Hl.reset with cursor := some ⟨.products, 31, 1, .every⟩ } }

theorem test_readTable :
    Taken Kind.readTable (.readTable hdr (.val .taps) 95 255 (.val .inUse)) State.reset ∧ Ready Kind.readMore hdr State.reset
      ∧ State.reset.hl.cursor = none ∧ Taken Kind.readMore (.readMore hdr) reading := by decide +kernel

/-- With IN_USE the one product in use is returned, and the cursor is absent when the count is met or none is left; with EVERY it
stands at the next index that does not fit. -/
theorem test_tableReply :
    let s := live id
    let reply := fun first n step => s.tableReply ⟨.products, first, n, step⟩
    (reply 0 1 .inUse).1 = none ∧ (reply 0 2 .inUse).1 = none ∧ (reply 4 2 .inUse).2 = [0#8, 0#8, 0#8]
      ∧ ((reply 0 1 .inUse).2.take 4) = [0#8, 0#8, 1#8, 3#8] ∧ (reply 0 32 .every).1 = some ⟨.products, 10, 22, .every⟩
      ∧ (reply 31 255 .every).1 = none ∧ (reply 0 10 .every).1 = none ∧ (reply 0 11 .every).1 = some ⟨.products, 10, 1, .every⟩
      ∧ s.plant.inUse .jobs 0 = false ∧ s.plant.inUse .stations 8 = true := by decide +kernel

/-- The PRODUCTS entry of an index not in use is absent with a name of spaces, a stage entry is 7 bytes, and a tap entry 57. -/
theorem test_entryLayouts :
    let s := live id
    s.entrySpelled .products 31 = [255#8, 255#8] ++ List.replicate 12 0x20#8 ++ List.replicate 8 255#8
      ∧ s.entrySpelled .stages 0 = [1#8, 255#8, 255#8, 255#8, 255#8, 255#8, 0#8] ∧ (s.entrySpelled .taps 30).take 3 = [9#8, 0#8, 7#8]
      ∧ (s.entrySpelled .taps 30).length = 57 ∧ (s.entrySpelled .mode 0).take 4 = [1#8, 0#8, 255#8, 1#8]
      ∧ (EntryBody.amend 7#32 30 258).spelled = [7#8, 0#8, 0#8, 0#8, 30#8, 2#8, 1#8, 0#8, 0#8]
      ∧ (EntryBody.purge 7 none none 1).spelled = [7#8, 255#8, 255#8, 255#8, 1#8, 0#8, 0#8, 0#8] := by decide +kernel

theorem test_fetchNotices : Taken Kind.fetchNotices (.fetchNotices hdr 8) State.reset := by decide +kernel

def bit (b : Bool) : BitSamples := ⟨b, b, b⟩
def sampled (v : Byte) (stop : BitSamples) : RxChar := ⟨bit false, Vector.ofFn fun i => bit (v.getLsbD i), stop⟩

theorem test_rxChar :
    (sampled 0xA5#8 (bit true)).byte = ⟨0xA5#8, false, false⟩
      ∧ (sampled 1#8 ⟨true, false, false⟩).byte = ⟨1#8, true, true⟩ ∧ (sampled 1#8 ⟨true, false, true⟩).byte = ⟨1#8, true, false⟩
      ∧ ({ sampled 0x80#8 (bit true) with start := ⟨true, false, false⟩ } : RxChar).byte = ⟨0x80#8, true, false⟩ := by decide +kernel

def low : State := { State.reset with hl := { Hl.reset with rxdLow := true } }

theorem test_low :
    low.hl.rxdLow = true ∧ exec (.overrun hdr) low = .next low ∧ exec (.unknownKind hdr 0#8) low = .next low
      ∧ exec (.frameDiscarded [sampled 0xA5#8 (bit true)]) low = .next low ∧ exec (.stop hdr) low = .next low := ⟨rfl, rfl, rfl, rfl, rfl⟩

def reply (made : Bool) : Reply := ⟨0x8E#8, 7#8, made, .ok, 0, [1#8], none⟩

theorem test_transmitter :
    (transmitterOf [reply false, reply true]).high = true
      ∧ (transmitterOf [reply true]).bits.take 10 = [false, true, false, true, false, false, true, false, true, true]
      ∧ transmitterOf [reply true] = .sending (0xA5#8 :: 5#8 :: 0x8E#8 :: 7#8 :: 0#8 :: 0#8 :: 1#8 ::
          leBytes 2 (crc16 [5#8, 0x8E#8, 7#8, 0#8, 0#8, 1#8]).toNat) := by decide +kernel

def noticed : State :=
  { State.reset with hl := { Hl.reset with notices := List.replicate 2 ⟨.stopState, 0, 1, 0, 0⟩, attn := true, overflow := true } }

theorem test_notices :
    Ready Kind.fetchNotices hdr noticed
      ∧ (let t := after (exec (.fetchNotices hdr 1) noticed)
         t.hl.notices.length = 1 ∧ t.hl.attn = true ∧ t.hl.overflow = false
           ∧ t.hl.replies.map (fun r => r.data.take 4) = [[1#8, 1#8, 0#8, 1#8]]) := by decide +kernel

/-! ### The cellar -/

theorem test_defineProduct :
    Taken Kind.defineProduct (.defineProduct hdr 31 65534 [] (some 50) 100000) (live id) := by decide +kernel

theorem test_defineLine :
    Taken Kind.defineLine (.defineLine hdr 47 3 2 26 11 20000 (.val true) (.val .unproven) (.val false)) (live id)
      ∧ Taken Kind.defineLine (.defineLine hdr 8 31 7 30 0 200 (.val true) (.val .beer) (.val true)) (config id) := by decide +kernel

/-- A line defined afresh has no coupler; one with an ON_LINE head keeps its coupler, CLOSED while it is OUT_OF_SERVICE; and only
TAP_STATE notices are raised. -/
theorem test_defineLine_outlet :
    let again : Instr := .defineLine hdr 7 3 2 26 7 1000 (.val true) (.val .water) (.val false)
    let s := live fun p => p.setLine 7 (line .outOfService .beer [12, 13])
    ((after (exec again s)).plant.line 7).map (·.outlet) = some ⟨some 0, .closed, false⟩
      ∧ ((after (exec (.defineLine hdr 47 3 2 26 11 20000 (.val true) (.val .unproven) (.val false)) s)).plant.line 47).map (·.outlet)
          = some ⟨none, .closed, false⟩
      ∧ (after (exec again (live fun p => (p.setLine 7 (line .outOfService .beer [12, 13])).setTap 30 (tap .idle)))).hl.notices.map (·.kind)
          = [.tapState] := by decide +kernel

theorem test_loadSource :
    Taken Kind.loadSource (.loadSource hdr 12 3 1000000 0#32)
      (live fun p => p.setSource 12 { Source.unbound with bound := some (26, 15) }) := by decide +kernel

theorem test_unloadSource :
    Taken Kind.unloadSource (.unloadSource hdr 13) (live id)
      ∧ Taken Kind.unloadSource (.unloadSource hdr 13) (live fun p => p.setSource 13 (source 1 .spent none)) := by decide +kernel

theorem test_chains :
    Taken Kind.appendChain (.appendChain hdr 7 13)
        (live fun p => (p.setLine 7 (line .serving .beer [12, 14, 15])).setSource 13 (source 1 .loaded none))
      ∧ Taken Kind.removeFromChain (.removeFromChain hdr 7 13) (live id) := by decide +kernel

theorem test_forceChangeover :
    Taken Kind.forceChangeover (.forceChangeover hdr 7) (live id)
      ∧ Taken Kind.forceChangeover (.forceChangeover hdr 7)
          (live fun p => (p.setLine 7 (line .dry .gas [13])).setSource 12 (source 0 .vacant none)) := by decide +kernel

theorem test_setLineService :
    Taken Kind.setLineService (.setLineService hdr 7 (.val .out)) (live id)
      ∧ Taken Kind.setLineService (.setLineService hdr 7 (.val .into)) (live fun p => p.setLine 7 (line .outOfService .water [12])) := by
  decide +kernel

def changing : Changeover := ⟨12, none, 10, none⟩

theorem test_fob :
    ((live fun p => p.setLine 7 { line .changeover .gas [12, 13] with change := some changing }).plant.line 7).map (·.state)
        = some .changeover
      ∧ ((live id).plant.source 12).state = .onLine ∧ (pouring (live id).plant).lineOpen 7 = true
      ∧ ((live fun p => p.setLine 7 { line .serving .beer [12, 13] with
            change := some { changing with primed := some 0 } }).plant.fobEvent 7 true).source 12 ≠ (live id).plant.source 12
      ∧ ((pouring (live id).plant).fobEvent 7 true).line 7 ≠ (live id).plant.line 7 := by decide +kernel

theorem test_lineTimers :
    (live fun p => p.setLine 7 { line .changeover .gas [12, 13] with change := some changing }).plant.changeoverEnd 7 = some 90010
      ∧ (live fun p => p.setLine 7 { line .serving .beer [12, 13] with
            change := some { changing with primed := some 20 } }).plant.retripEnd 7 = some 5020
      ∧ (live id).plant.changeoverEnd 7 = none ∧ (live id).plant.retripEnd 7 = none := by decide +kernel

def primed (now : Nat) : Plant :=
  (live fun p => at_ now (p.setLine 7 { line .serving .beer [12, 13] with change := some { changing with primed := some 0 } })).plant

/-- 5000 ms after the prime a keg end is still a re-trip, and 1 ms later it is not. -/
theorem test_retrip :
    (((primed 5000).kegEnd 7 .fob).source 12).state = .fault ∧ (((primed 5001).kegEnd 7 .fob).source 12).state = .spent
      ∧ (((primed 5000).kegEnd 7 .fob).line 7).bind (·.change) = some ⟨13, some 12, 5000, none⟩ := by decide +kernel

def attempting : Plant := (live fun p => p.setLine 7 { line .changeover .gas [12, 13] with change := some changing }).plant

theorem test_interrupts :
    ((attempting.interruptAttempt 7 true).source 12).state = .spent ∧ ((attempting.interruptAttempt 7 false).source 12).state = .loaded
      ∧ ((attempting.cellarLoss 26).line 7).map (fun x => (x.state, x.unsupervised)) = some (.dry, true)
      ∧ (((live id).plant.cellarLoss 26).line 7).map (fun x => (x.state, x.unsupervised)) = some (.serving, true)
      ∧ ((attempting.kegEnd 7 .fob).line 7) = attempting.line 7 := by decide +kernel

theorem test_kegRemoved :
    let p := (live fun p => (p.setSource 14 { source 2 .spent none with closePending := true }).setSource 63 (source 3 .fault none)).plant
    (p.source 12).state = .onLine ∧ (p.source 12).line = some 7 ∧ ((p.kegRemoved 13).source 13).state = .vacant
      ∧ ((p.kegRemoved 14).source 14).removed = true ∧ ((p.kegRemoved 63).source 63).state = .vacant ∧ (p.source 11).state = .vacant
      ∧ (((p.setLine 7 (line .outOfService .beer [12, 13])).kegEnd 7 .fob).line 7).map (fun x => (x.state, x.content, x.chain))
          = some (.outOfService, .gas, [13]) := by decide +kernel

/-- A head on coupler 0 and its standby on coupler 1 that go in one status: the standby is VACANT before the line's state is picked, so
the line is DRY, where the head alone leads to the standby (R14). -/
theorem test_removedTogether :
    let p := (live id).plant
    let status := fun gone : List Nat => p.cellarStatus 26 (Vector.ofFn fun i => !gone.contains i.val) (Vector.replicate 12 false)
      (some (Vector.replicate 16 true, Vector.replicate 12 false))
    (p.positionAt 26 0 = some 12 ∧ p.positionAt 26 1 = some 13 ∧ (p.source 12).state = .onLine ∧ (p.source 13).state = .loaded)
      ∧ ((status [0, 1]).source 13).state = .vacant ∧ ((status [0, 1]).source 12).state = .spent
      ∧ ((status [0, 1]).line 7).map (fun x => (x.state, x.chain, x.change)) = some (.dry, [], none)
      ∧ (status [0, 1]).au.journal.map (·.body.num) = [3] ∧ ((status [0]).line 7).bind (·.change) = some ⟨13, some 12, 0, none⟩ := by
  decide +kernel

/-- The outlet outputs of Table 1-6 as a line moves: the next position tried, with the vent on, the prime, the interruption, the keg end
that leaves none, a head out of service that ends, the forced changeover, and the line out of service and back in (R10). -/
theorem test_outlets :
    let p := (live id).plant
    let alone := p.setLine 7 (line .serving .beer [12])
    let outlet := fun q : Plant => (q.line 7).map fun x => (x.state, x.outlet)
    outlet (p.kegEnd 7 .fob) = some (.changeover, ⟨some 1, .supply, true⟩) ∧ outlet (alone.kegEnd 7 .fob) = some (.dry, ⟨none, .closed, false⟩)
      ∧ outlet (attempting.fobEvent 7 false) = some (.serving, ⟨some 0, .supply, false⟩)
      ∧ outlet (attempting.interruptAttempt 7 false) = some (.dry, ⟨none, .closed, false⟩)
      ∧ outlet (attempting.cellarLoss 26) = some (.dry, ⟨none, .closed, false⟩)
      ∧ outlet (attempting.failAttempt 7 changing .failedTimeout none) = some (.changeover, ⟨some 1, .supply, true⟩)
      ∧ outlet (p.forceChangeover 7) = some (.changeover, ⟨some 1, .supply, true⟩)
      ∧ outlet (p.lineOut 7) = some (.outOfService, ⟨some 0, .closed, false⟩)
      ∧ outlet ((p.lineOut 7).lineIn 7) = some (.serving, ⟨some 0, .supply, false⟩)
      ∧ outlet ((p.lineOut 7).kegEnd 7 .fob) = some (.outOfService, ⟨none, .closed, false⟩) := by decide +kernel

/-- The attempts of two lines, interrupted by one loss: their entries go by line number (log 89), with the notices of each. -/
theorem test_interruptedTogether :
    let p := attempting.setLine 3 { line .changeover .gas [14] with index := 3, change := some ⟨14, none, 5, none⟩ }
    let q := p.cellarLoss 26
    q.au.journal.map (·.body) = [.changeover 3 none (some 14) .interrupted, .changeover 7 none (some 12) .interrupted]
      ∧ p.interruptions (fun x => x.station = 26) = q.au.journal.map (·.body)
      ∧ ⟨.changeoverResult, 7, 3, 12, 0#32⟩ ∈ q.raised ∧ ⟨.lineState, 7, 3, 1, 0#32⟩ ∈ q.raised := by decide +kernel

/-- A keg end under a pour sets close pending; the pour's completion writes the KEG_CLOSE entry, with its volume, and a position whose keg
has gone is VACANT. Without a pour the entry is written at once. -/
theorem test_closePending :
    let p := ((live pouring).plant.pourOn 12).kegEnd 7 .fob
    let done_ := fun q : Plant => (q.modTap 30 fun t => { t with count := some 200#24 }).completePour 30 false
    let q := done_ p
    ((p.source 12).closePending, (p.source 12).pours, p.au.journal) = (true, 1, [])
      ∧ ((q.source 12).closePending, (q.source 12).pours) = (false, 0)
      ∧ q.au.journal.map (·.body.num) = [0, 3] ∧ q.au.journal.getLast?.map (·.body) = some (q.closeOf 12 (keg.drawn 10))
      ∧ ⟨.yieldDrift, 12, 0, 3, 0#32⟩ ∈ q.raised ∧ ((done_ (p.kegRemoved 12)).source 12).state = .vacant
      ∧ ((live id).plant.endKeg 12 .fault).au.journal.map (·.body) = [(live id).plant.closeOf 12 keg] := by decide +kernel

theorem test_cellarJoin :
    let p := (live fun p => p.setLine 7 { line .serving .beer [12, 13] with unsupervised := true }).plant
    let q := p.cellarJoin 26 (Vector.ofFn fun i => i.val ≠ 1) (Vector.replicate 12 false)
    (q.line 7).map (·.unsupervised) = some false ∧ (q.source 13).state = .vacant ∧ (q.source 12).state = .onLine
      ∧ ((p.cellarStatus 26 (Vector.replicate 16 true) (Vector.ofFn fun i => i.val = 7)
            (some (Vector.replicate 16 true, Vector.replicate 12 false))).source 12).state = .spent := by
  decide +kernel

/-- A position being tried at the loss of its station goes back to LOADED. -/
theorem test_cellarLoss :
    let p := (live fun p => (p.setSource 63 (source 1 .onLine (some 7))).setLine 7
      { line .changeover .gas [63] with change := some { changing with position := 63 } }).plant
    ((p.cellarLoss 26).source 63).state = .loaded ∧ ((attempting.cellarLoss 26).source 12).state = .loaded
      ∧ (p.line 7).map (·.station) = some 26 := by decide +kernel

theorem test_lineEndsPours :
    (live pouring).plant.lineOpen 7 = true ∧ ((live pouring).plant.tap 30).line = some 7 ∧ ((live pouring).plant.tap 30).state = .pouring
      ∧ Taken Kind.forceChangeover (.forceChangeover hdr 7) (live pouring)
      ∧ Taken Kind.setLineService (.setLineService hdr 7 (.val .out)) (live pouring) := by decide +kernel

/-! ### Tickets, taps and pours -/

theorem test_issueTicket : Taken Kind.issueTicket (.issueTicket hdr 9 3 1000 (some 3600) 1#32) (live id) := by decide +kernel

theorem test_cancelTicket :
    Taken Kind.cancelTicket (.cancelTicket hdr 0 55#32) (live id)
      ∧ Taken Kind.cancelTicket (.cancelTicket hdr 159 55#32) (live fun p => p.setTicket 159 (some (ticket .part))) := by decide +kernel

theorem test_topupWindow :
    LinkReady State.reset ∧ hdr.length = none ∧ Quiet State.reset
      ∧ Taken Kind.setTopupWindow (.setTopupWindow hdr 120) State.reset
      ∧ (let p := (live fun p => { p with tkm := { p.tkm with window := 0 } }).plant
         p.tkm.window = 0 ∧ 484 + p.tolerance 3 < (ticket .queued).remaining ∧ (ticket .queued).topupDeadline = none) := by
  decide +kernel

theorem test_ticketTimers :
    (live id).plant.validityEnd 0 = some 600000 ∧ (live id).plant.topupEnd 0 = none
      ∧ (live fun p => p.setTicket 0 (some { ticket (.claimed .queued 30) with topup := .running 5, validity := .out })).plant.topupEnd 0
          = some 5
      ∧ (live fun p => p.setTicket 0 (some { ticket .part with topup := .running 5, validity := .out })).plant.validityEnd 0 = none := by
  decide +kernel

theorem test_tapUpkeep :
    (live id).plant.tapStateFor ((live id).plant.tap 30) = .idle
      ∧ (pouring (live id).plant).tapStateFor ((pouring (live id).plant).tap 30) = .pouring
      ∧ ((live fun p => p.modTap 30 fun t => { t with cleaning := true }).plant.refreshTap 30).tap 30
          = { tap .cleaning with cleaning := true, lamp := .cap } := by decide +kernel

/-- The rows of Table 3-2 where they meet, and the reasons of R43. -/
theorem test_tapRows :
    let at_ (f : Tap → Tap) : Tap := ((live fun p => p.setTap 30 (f (tap .idle))).plant.refreshTap 30).tap 30
    let held (f : Plant → Plant) : Holds := ((live f).plant.refreshTap 30).tap 30 |>.holds
    (at_ fun t => { t with line := none, off := true, cleaning := true }).state = .unassigned
      ∧ (at_ fun t => { t with cleaning := true, off := true }).state = .cleaning ∧ (at_ fun t => { t with off := true }).state = .off
      ∧ (at_ fun t => { t with off := true, pour := some pour }).state = .pouring
      ∧ (at_ fun t => { t with station := some (26, 0) }).state = .offline ∧ (at_ fun t => { t with station := none }).state = .offline
      ∧ (at_ fun t => { t with pour := some { pour with cause := some .stop } }).state = .ending ∧ (at_ id).state = .idle
      ∧ (at_ id).holds = Holds.none
      ∧ held (fun p => p.setLineView 7 ⟨.draining, 2, false⟩) = { Holds.none with line := true }
      ∧ held (fun p => p.setTrunkView 2 .hot) = { Holds.none with trunkHot := true }
      ∧ held (fun p => p.modMsc fun m => { m with stop := .releasable }) = { Holds.none with stop := true }
      ∧ held (fun p => { p with au := { p.au with refused := true } }) = { Holds.none with journal := true }
      ∧ held (fun p => p.setLineView 7 ⟨.serving, 2, true⟩) = { Holds.none with unsupervised := true } := by decide +kernel

/-- A change of a tap's state brings its TAP_STATE notice, a change to POURING none, and with 64 notices held the overflow flag. -/
theorem test_tapNotices :
    let s := live id
    let shown := fun t : State => (t.hl.notices.filter fun n => n.kind == .tapState).map fun n => (n.subject, n.first, n.second)
    let crowded : State := { s with hl := { s.hl with notices := List.replicate 64 ⟨.stopState, 0, 1, 0, 0⟩, attn := true } }
    Quiet s ∧ shown (after (exec (.closeTap hdr 30) s)) = [(30, 2, 0)] ∧ shown (after (exec (.stop hdr) s)) = [(30, 6, 4)]
      ∧ (after (exec (.closeTap hdr 30) crowded)).hl.overflow = true
      ∧ ((s.plant.tryPour 30 .normal none none).tap 30).state = .pouring ∧ (s.plant.tryPour 30 .normal none none).raised = [] := by decide +kernel

theorem test_defineTap :
    Taken Kind.defineTap (.defineTap hdr 95 9 1 (some 7) (.val .free) (some 60000) (some 60)) (live id)
      ∧ Taken Kind.defineTap (.defineTap hdr 0 30 3 none .absent none none) (config id) := by decide +kernel

/-- A tap mapped in CONFIG rests with its off flag clear; in LIVE one mapped anew in OFF stays OFF, and loses the flag with its line. -/
theorem test_defineTap_off :
    let off := live fun p => p.setTap 30 { tap .off with off := true }
    let set (s : State) (line : Option Nat) : Tap := (after (exec (.defineTap hdr 30 9 0 line .absent none none) s)).plant.tap 30
    let rest := (config fun p => p.setLine 7 (line .outOfService .beer [12]))
    ((set off (some 7)).state, (set off (some 7)).off) = (.off, true) ∧ ((set off none).state, (set off none).off) = (.unassigned, false)
      ∧ rest.plant.live = false ∧ (set rest (some 7)).off = false
      ∧ ((set rest (some 7)).state = .held ∨ (set rest (some 7)).state = .offline) := by decide +kernel

theorem test_setTap :
    Taken Kind.setTap (.setTap hdr 30 (.val .free) (some 2000) (some 5)) (live id)
      ∧ Taken Kind.closeTap (.closeTap hdr 30) (live pouring) ∧ (live pouring).plant.tapOnline ((live pouring).plant.tap 30) = true
      ∧ Taken Kind.openTap (.openTap hdr 30) (live fun p => p.setTap 30 { tap .off with off := true }) := by decide +kernel

def awaiting : Calibration := .awaiting 5000 500 10000 500 600#32 600000

theorem test_calibration :
    Taken Kind.startCalibration (.startCalibration hdr 30 1000) (live id)
      ∧ Taken Kind.calibrationResult (.calibrationResult hdr 30 500) (live fun p => p.setTap 30 { tap .idle with calibration := some awaiting })
      ∧ Ready Kind.calibrationResult hdr (live id) ∧ ((live id).plant.tap 30).calibration = none := by decide +kernel

theorem test_tapTimers :
    let p := (live fun p => p.setTap 30 { tap .idle with noTicket := some 3000, calibration := some awaiting }).plant
    let q := (live fun p => p.setTap 30 { tap .idle with calibration := some (.armed 500 120#32 120000) }).plant
    (p.tap 30).noTicket = some 3000 ∧ resultEnd (p.tap 30).calibration = some 600000 ∧ armEnd (q.tap 30).calibration = some 120000
      ∧ (live pouring).plant.limitEnd 30 = some 20000
      ∧ (live fun p => p.setTap 30 { tap .idle with
            late := some ⟨1#32, 0#24, 0#24, 0, 10000, none, 0, .free, none, 40⟩ }).plant.lateEnd 30 = some 60040
      ∧ (q.tap 30).noTicket = none ∧ (q.tap 30).pour = none ∧ (q.tap 30).late = none ∧ ((live id).plant.tap 30).calibration = none := by
  decide +kernel

/-- A tap that is closed loses an ARMED calibration, and keeps one that awaits its result (R77). -/
theorem test_disarmed :
    let closed := fun c : Calibration =>
      ((after (exec (.closeTap hdr 30) (live fun p => p.setTap 30 { tap .idle with calibration := some c }))).plant.tap 30).calibration
    closed (.armed 500 120#32 120000) = none ∧ closed awaiting = some awaiting := by decide +kernel

theorem test_pours :
    (live id).plant.grants = true
      ∧ (live fun p => { p with au := { p.au with reserved := 2016 } }).plant.grants = false
      ∧ (live ending).plant.endingEnd 30 = some 2000 ∧ ((live ending).plant.tap 30).count = some 100#24
      ∧ (((live ending).plant.completePour 30 true).tap 30).state = .idle := by decide +kernel

/-- The record of a pour at its start: clear, at the time of the start, in the class of the trunk's state. -/
theorem test_pourRecord :
    let worst := fun st => (((at_ 70 ((live id).plant.setTrunkView 2 st)).tryPour 30 .normal none none).tap 30).pour.map
      fun u => (u.worst, u.lastChange, u.holdExpired)
    worst .normal = some (.cold, 70, false) ∧ worst .hot = some (.hot, 70, false) ∧ worst .warm = some (.warm, 70, false)
      ∧ worst .probeFault = some (.warm, 70, false) := by decide +kernel

theorem test_closeTap :
    Taken Kind.closeTap (.closeTap hdr 30) (live id) ∧ ((after (exec (.closeTap hdr 30) (live id))).plant.tap 30).state = .off
      ∧ Taken Kind.closeTap (.closeTap hdr 30) (live fun p => p.setTap 30 (tap .offline))
      ∧ Taken Kind.closeTap (.closeTap hdr 30) (live fun p => p.setTap 30 { tap .off with off := true }) := by decide +kernel

def late (source : Option Nat) : LateCount := ⟨1#32, 100#24, 150#24, 5, 10000, source, 10, .free, some 3, 40⟩
def lateTap (room : Bool) : Plant :=
  (live fun p => (if room then p else { p with au := { p.au with reserved := 2048 } }).setTap 30
    { tap .idle with late := some (late (some 12)) }).plant

theorem test_tapLossAndJoin :
    (((live pouring).plant.tapLoss 9).tap 30).late.map (fun r => (r.seq, r.ml, r.lossBase)) = some (1#32, 0, 0)
      ∧ ((live pouring).plant.tap 30).station = some (9, 0) ∧ ((live pouring).plant.tap 30).pour = some pour
      ∧ (((live id).plant.tapJoin 9 [⟨true, true, false, false, 5#24⟩] true false).tap 30).count = some 5#24
      ∧ (((lateTap true).tapJoin 9 [⟨true, true, false, false, 250#24⟩] false false).tap 30).late = none
      ∧ (((lateTap true).takeLate 30 250#24).au.journal.map (·.body)) = [.amend 1#32 30 10]
      ∧ (((lateTap true).takeLate 30 159#24).au.journal) = [] ∧ (lateTap false).room = false
      ∧ (((lateTap false).takeLate 30 250#24).tap 30).creep = 10 := by decide +kernel

/-- The loss of a station that is no longer ACTIVE: the pour completes with its late-count record, and the tap is OFFLINE and closed. -/
theorem test_tapLoss_offline :
    let q := (inState 9 (fun x => { x with state := .lost }) (live pouring).plant).tapLoss 9
    ((q.tap 30).state, (q.tap 30).lamp, (q.tap 30).valve) = (.offline, .off, .closed)
      ∧ (q.tap 30).late.map (fun r => (r.product, r.category)) = some (some 3, .free)
      ∧ (q.tap 30).pour = none ∧ (live ending).plant.endingEnd 30 = some 2000
      ∧ after (exec (.pourLimitExpiry 30) (live ending)) = live ending ∧ after (exec (.endingTimerExpiry 30) (live pouring)) = live pouring := by
  decide +kernel

def calibrating : Plant := (live fun p => p.setTap 30 { tap .idle with calibration := some (.armed 500 120#32 120000) }).plant
def freeTap (st : TapState) (u : Option Pour) : Plant := (live fun p => p.setTap 30 { tap st with mode := .free, pour := u }).plant

/-- A press by the tap's state and mode: the armed calibration, a FREE pour, a ticket's pour, no ticket, the end of a ticket's pour. -/
theorem test_press :
    ((calibrating.takePress 30).tap 30).pour.map (fun u => (u.kind, u.targetMl)) = some (.calibration, some 500)
      ∧ (((freeTap .idle none).takePress 30).tap 30).pour.map (fun u => (u.kind, u.mode)) = some (.normal, .free)
      ∧ (((live id).plant.takePress 30).ticket 0).map (·.state) = some (.claimed .queued 30)
      ∧ (((live fun p => p.setTicket 0 (some (ticket .part))).plant.takePress 30).tap 30).pour.map (·.kind) = some .topup
      ∧ (((live fun p => p.setQueue 9 []).plant.takePress 30).tap 30).noTicket = some 3000
      ∧ (((live fun p => p.setTap 30 { tap .pouring with pour := some { pour with mode := .ticket } }).plant.takePress 30).tap 30).pour.bind
          (·.cause) = some .stopped
      ∧ (((freeTap .pouring (some pour)).takeRelease 30).tap 30).state = .ending
      ∧ (((freeTap .pouring (some pour)).takePress 30).tap 30).state = .pouring := by decide +kernel

def noRoom (k : Ticket) : Plant :=
  (live fun p => ({ p with au := { p.au with reserved := 2016 } }).setTicket 0 (some k)).plant

/-- With 32 places left a pour is refused, and its ticket goes back, or closes when its timer has run out; with 33 it starts. -/
theorem test_refusedPour :
    let k : Ticket := ticket (.claimed .queued 30)
    (((noRoom k).tryPour 30 .normal (some 500) (some 0)).ticket 0).map (·.state) = some .queued
      ∧ ((noRoom { k with validity := .out }).tryPour 30 .normal (some 500) (some 0)).ticket 0 = none
      ∧ (((noRoom k).tryPour 30 .normal none none).tap 30).holds.journal = true
      ∧ ((live fun p => { p with au := { p.au with reserved := 2015 } }).plant.tryPour 30 .normal none none).au.reserved = 2016 := by
  decide +kernel

/-- The first refusal raises JOURNAL_LEVEL REFUSED with the fill, a later one none. -/
theorem test_refusalNotice :
    let k : Ticket := ticket (.claimed .queued 30)
    let again : Plant := { noRoom k with au := { (noRoom k).au with refused := true } }
    ((noRoom k).tryPour 30 .normal none none).raised.head? = some ⟨.journalLevel, 0, 0, 0, 0#32⟩ ∧ (noRoom k).au.refused = false
      ∧ (again.tryPour 30 .normal none none).raised.any (fun n => n.kind == .journalLevel) = false := by decide +kernel

theorem test_takeTap :
    let open_ := (live fun p => p.setTap 30 { tap .pouring with valve := .openTo 150#24, pour := some pour }).plant
    let capped := (live fun p => p.setTap 30 { tap .cleaning with cleaning := true, released := true, capImage := some true }).plant
    ((open_.takeValve 30 false true).tap 30).pour = none ∧ ((open_.takeValve 30 true true).tap 30).state = .pouring
      ∧ (((live ending).plant.takeValve 30 false false).tap 30).state = .idle
      ∧ (((at_ 1500 open_).takeStall 30 false).tap 30).state = .ending ∧ (((at_ 1499 open_).takeStall 30 false).tap 30).state = .pouring
      ∧ (((at_ 9 open_).takeCount 30 101#24 false).tap 30).pour.map (·.lastChange) = some 9
      ∧ (((live id).plant.takeCount 30 120#24 false).tap 30).creep = 2 ∧ (((live id).plant.takeCount 30 120#24 true).tap 30).creep = 0
      ∧ ((capped.takeCap 30 false).tap 30).state ≠ .cleaning ∧ ((capped.takeCap 30 true).tap 30).state = .cleaning
      ∧ (((live id).plant.takeHandle 30 (some false) true).tap 30).state = .pouring := by decide +kernel

theorem test_status_holdExpired :
    let p := (live pouring).plant
    ((p.tapStatus 9 [⟨true, true, true, false, 100#24⟩] none true).tap 30).pour.map (fun u => (u.holdExpired, u.cause))
        = some (true, some .holdExpired)
      ∧ ((p.tapStatus 9 [⟨true, true, true, false, 100#24⟩] none false).tap 30).pour.bind (·.cause) = none := by decide +kernel

theorem test_calibrationPour :
    let u : Pour := { pour with kind := .calibration, cause := some .target, targetMl := some 500 }
    let p := (live fun p => p.setTap 30 { tap .ending with count := some 5100#24, pour := some u }).plant
    ((p.completePour 30 false).tap 30).calibration = some (.awaiting 5000 500 10000 500 600#32 600000)
      ∧ (p.completePour 30 false).raised.map (·.kind) = [.calibrationReady] := by decide +kernel

/-- What a pour, a late count and a SHORT close add to the product totals, and to the keg; a full total stays. -/
theorem test_totals :
    let full : Totals := { Totals.zero with free := 4294967290, pours := 4294967295 }
    let u : Pour := { pour with cause := some .release, endingEnd := some 2000 }
    let p := (live fun p => (p.setTotals 3 (full, full)).setTap 30 { tap .ending with pour := some u, count := some 200#24 }).plant
    let k : Ticket := ticket (.claimed .queued 30)
    let short := (live fun p => (p.setTicket 0 (some k)).setTap 30 { tap .ending with
      pour := some { u with ticket := some 0, mode := .ticket, cause := some .cancelled } }).plant
    (p.completePour 30 false).totals 3 = ({ full with free := 4294967295 }, { full with free := 4294967300 })
      ∧ ((p.completePour 30 false).source 12).keg.map (·.dispensed) = some 10 ∧ (p.source 12).removed = false
      ∧ (short.completePour 30 false).totals 3 = ({ Totals.zero with pours := 1, shorts := 1 }, { Totals.zero with pours := 1, shorts := 1 })
      ∧ ((lateTap true).takeLate 30 250#24).totals 3 = ({ Totals.zero with free := 10 }, { Totals.zero with free := 10 })
      ∧ ((lateTap false).takeLate 30 250#24).totals 3 = (Totals.zero, Totals.zero)
      ∧ ((live fun p => p.setTicket 0 (some { ticket .part with topup := .running 5 })).plant.expireTicket 0 .short).totals 3
          = ({ Totals.zero with shorts := 1 }, { Totals.zero with shorts := 1 })
      ∧ Keg.drawn 10 keg = { keg with dispensed := 10 } := by decide +kernel

/-- A pour of `n` ml for the claimed ticket 0 has completed, with a top-up window. -/
def pouredFor (n window : Nat) (k : Ticket) : Plant :=
  (live fun p =>
    ((({ p with tkm := { p.tkm with window := window } } : Plant).setTicket 0 (some k)).setMarks 9 0#32).setTap 30 { tap .ending with
      count := some (BitVec.ofNat 24 (100 + 10 * n)), pour := some { pour with ticket := some 0, mode := .ticket, cause := some .stopped } }
    ).plant.completePour 30 false
def claimedTicket : Ticket := ticket (.claimed .queued 30)
def claimedAgain (topup : Timer) : Ticket := { ticket (.claimed .part 30) with topupDeadline := some 7#32, topup := topup }
/-- The counters of R28, the product marks of station 9, and its queue. -/
def ticketCounts (p : Plant) : List Nat := [p.au.poured, p.au.shorted, p.au.voided, (p.marksOf 9).toNat] ++ p.queue 9

/-- A ticket at its pour's end (R34, R35): PARTIAL with the volume that remains and a deadline from now on, or the one it has; closed
POURED within the tolerance, SHORT without a window or with the deadline passed; its queue, marks and counters. -/
theorem test_ticketSettled :
    (pouredFor 484 300 claimedTicket).ticket 0 =
        some { claimedTicket with state := .part, remaining := 16, topupDeadline := some 300#32, topup := .running (300 * 1000) }
      ∧ (pouredFor 200 300 (claimedAgain (.running 7000))).ticket 0 =
        some { claimedAgain (.running 7000) with state := .part, remaining := 300 }
      ∧ (pouredFor 485 300 claimedTicket).ticket 0 = none := by decide +kernel

theorem test_ticketSettled_counts :
    ticketCounts (pouredFor 484 300 claimedTicket) = [0, 0, 0, 8, 0] ∧ ticketCounts (pouredFor 485 300 claimedTicket) = [1, 0, 0, 0]
      ∧ ticketCounts (pouredFor 484 0 claimedTicket) = [0, 1, 0, 0]
      ∧ ticketCounts (pouredFor 200 300 (claimedAgain .out)) = [0, 1, 0, 0] := by decide +kernel

/-- An armed calibration is gone once its pour has its place, and stays armed on a HELD tap when refused (R77). -/
theorem test_calibrationPlace :
    let refused : Plant := { calibrating with au := { calibrating.au with reserved := 2016 } }
    let pressed := fun p : Plant => ((p.tryPour 30 .calibration (some 500) none).tap 30)
    (pressed calibrating).calibration = none ∧ (pressed calibrating).state = .pouring
      ∧ (pressed refused).calibration = some (.armed 500 120#32 120000) ∧ (pressed refused).state = .held
      ∧ calibrating.tapOnline (calibrating.tap 30) = true := by decide +kernel

/-- A closed tap that is opened takes the row of Table 3-2 that applies; a pour in ENDING keeps its cause at CLOSE_TAP (R46, R47). -/
theorem test_reopened :
    let off : Tap := { tap .off with off := true, staged := ⟨some .free, none, none⟩ }
    let opened := fun (f : Plant → Plant) (t : Tap) => (after (exec (.openTap hdr 30) (live fun p => f (p.setTap 30 t)))).plant.tap 30
    let closed := (after (exec (.closeTap hdr 30) (live ending))).plant.tap 30
    ((opened id off).state, (opened id off).mode) = (.idle, .free)
      ∧ (opened (fun p => p.setLineView 7 ⟨.dry, 2, false⟩) off).state = .held
      ∧ (opened (fun p => p.modStation 9 fun x => { x with state := .lost }) off).state = .offline
      ∧ closed.state = .ending ∧ closed.off = true ∧ closed.pour.bind (·.cause) = some .release
      ∧ (live ending).plant.tapOnline ((live ending).plant.tap 30) = true := by decide +kernel

/-! ### The station bus -/

theorem test_defineStation :
    Taken Kind.defineStation (.defineStation hdr 30 (.val .tap) 4 0) (live id)
      ∧ Taken Kind.defineStation (.defineStation hdr 1 (.val .cellar) 0 3) (live id)
      ∧ Taken Kind.defineStation (.defineStation hdr 26 (.val .cellar) 0 0) (live id)
      ∧ Taken Kind.defineStation (.defineStation hdr 3 .absent 0 0) (live id) := by decide +kernel

def jobImage (p : Plant) : Plant :=
  p.setCircuit 0 { Circuit.fresh with state := .busy, job := some 1, out := ⟨true, some .caustic, true, 500, some 2⟩ }

def visiting (ph : BusPhase) (p : Plant) : Plant := p.modSbc fun b => { b with phase := ph }

theorem test_busRequests :
    Taken Kind.rescanStation (.rescanStation hdr 9) (live id) ∧ Taken Kind.traceStation (.traceStation hdr 9 (.val true)) (live id)
      ∧ Taken Kind.traceStation (.traceStation hdr 9 (.val false)) (live id) ∧ Ready Kind.scanBus hdr (config id)
      ∧ goesOn (exec (.scanBus hdr) (config id)) := by decide +kernel

theorem test_scan :
    let p := (config fun p => (visiting (.scanning 31) p).modSbc fun b => { b with scan := some [] }).plant
    p.sbc.phase = .scanning 31 ∧ p.sbc.exchange = none ∧ p.sbc.scan = some []
      ∧ (config id).plant.sbc.phase = .visit 1 ∧ (config (visiting (.scanning 30))).plant.sbc.phase = .scanning 30
      ∧ (config (visiting (.scanning 30))).plant.sbc.closeAllDue = false := by decide +kernel

theorem test_visit :
    let at9 : (Station → Station) → Plant := fun f => (live fun p => inState 9 f (visiting (.visit 9) p)).plant
    (at9 id).sbc.phase = .visit 9 ∧ (at9 id).sbc.exchange = none ∧ (at9 id).sbc.closeAllDue = false ∧ ((at9 id).station 9).state = .active
      ∧ ((at9 fun x => { x with dueNext := true }).station 9).dueNext = true
      ∧ ((at9 fun x => { x with state := .joining, descriptorAccepted := true }).station 9).state = .joining
      ∧ ((at9 fun x => { x with state := .mismatch }).station 9).state = .mismatch
      ∧ ((at9 fun x => { x with state := .absent }).station 9).state = .absent ∧ (at9 id).sbc.round ≠ 9 % 16
      ∧ ((inState 16 (fun x => { x with kind := some .tap, state := .lost }) (visiting (.visit 16) (at9 id))).station 16).state = .lost
      ∧ (at9 id).sbc.round = 16 % 16 ∧ (addressed 9 .poll (at9 id)).sbc.exchange ≠ none := by decide +kernel

/-- The image of a POLL under each composition, and its bytes. -/
theorem test_image :
    let open_ := (pouring (live id).plant).setTap 30 { tap .pouring with valve := .openTo 150#24, lamp := .pouring, pour := some pour }
    let cool := (live fun p => p.modCc fun c => { c with remote := true }).plant
    let clean := jobImage (live id).plant
    open_.compose 9 = .tap [(.openTo 150#24, .pouring), (.closed, .off)]
      ∧ (open_.modMsc fun m => { m with stop := .releasable }).compose 9 = .tap [(.closed, .pouring), (.closed, .off)]
      ∧ (open_.modMsc fun m => { m with mode := .config }).compose 9 = .tap [(.closed, .pouring), (.closed, .off)]
      ∧ (BusFrame.poll 9 (open_.compose 9)).body = [2#8, 1#8, 150#8, 0#8, 0#8, 2#8, 0#8, 0#8, 0#8, 0#8, 0#8]
      ∧ ((BusFrame.poll 26 (open_.compose 26)).body.drop 22).take 3 = [0#8, 1#8, 1#8] ∧ (BusFrame.poll 26 (open_.compose 26)).body.length = 37
      ∧ (BusFrame.poll 2 (cool.compose 2)).body.getLast? = some 1#8
      ∧ (BusFrame.poll 2 ((cool.modMsc fun m => { m with mode := .config }).compose 2)).body = 2#8 :: List.replicate 11 1#8 ++ [0#8]
      ∧ (BusFrame.poll 3 (clean.compose 3)).body.take 9 = [2#8, 0#8, 2#8, 1#8, 0xF4#8, 1#8, 0#8, 0#8, 2#8]
      ∧ ((clean.modMsc fun m => { m with stop := .active }).compose 3) = .cleaning [⟨false, some .caustic, true, 500, some 2⟩, CircuitOut.idle] := by
  decide +kernel

theorem test_attention :
    let calling : Nat → (Station → Station) → Plant := fun k f => (live fun p => inState 9 f (visiting (.calls k) p)).plant
    slotRead 5 [9#5, 26#5] = 9 ∧ slotRead 5 [0#5] = 0 ∧ (∀ b ∈ [9#5, 26#5], (9#5).toNat ≤ b.toNat)
      ∧ (calling 3 id).sbc.phase = .calls 3 ∧ (calling 3 id).sbc.exchange = none ∧ (calling 3 id).sbc.closeAllDue = false
      ∧ ((calling 0 id).station 9).state = .active ∧ ((calling 0 id).station 5).kind = none
      ∧ ((calling 0 fun x => { x with state := .joining }).station 9).state = .joining
      ∧ ((calling 0 fun x => { x with state := .lost }).station 9).state = .lost ∧ (calling 4 id).sbc.phase = .calls 4 := by
  decide +kernel

theorem test_closeAll :
    let due := (live fun p => p.modSbc fun b => { b with closeAllDue := true }).plant
    let owed := (live fun p => inState 9 (fun x => { x with state := .joining, descriptorAccepted := true })
      (p.modSbc fun b => { b with closeAllDue := true, owedPoll := some 9 })).plant
    due.sbc.closeAllDue = true ∧ due.sbc.exchange = none ∧ due.sbc.owedPoll = none ∧ owed.sbc.owedPoll = some 9
      ∧ (owed.station 9).state = .joining ∧ (owed.station 9).descriptorAccepted = true ∧ (live id).plant.sbc.closeAllDue = false := by
  decide +kernel

theorem test_miss :
    let p := (live fun p => inState 9 (fun x => { x with misses := 2 }) (addressed 9 .poll p)).plant
    let q := (live fun p => inState 9 (fun x => { x with state := .joining, misses := 1 }) (addressed 9 .describe p)).plant
    p.sbc.exchange = some ⟨9, .poll⟩ ∧ (p.station 9).state = .active ∧ 3 ≤ (p.station 9).misses + 1
      ∧ (q.station 9).state = .joining ∧ 2 ≤ (q.station 9).misses + 1
      ∧ ((live id).plant.station 9).misses + 1 < 2 ∧ (live id).plant.sbc.exchange = none
      ∧ (live (addressed 9 .clearAttention)).plant.sbc.exchange = some ⟨9, .clearAttention⟩ := by decide +kernel

def statusOf9 (restarted : Bool) : StatusReply :=
  ⟨9, restarted, false, true, .tap [⟨true, true, false, false, 100#24⟩, ⟨false, true, false, false, 7#24⟩]⟩

theorem test_status :
    let p := (live (addressed 9 .poll)).plant
    p.sbc.exchange = some ⟨9, .poll⟩ ∧ imageFits (p.station 9) (statusOf9 true).image = true ∧ (p.station 9).state = .active
      ∧ ((inState 9 (fun x => { x with state := .joining, descriptorAccepted := true, trace := true }) p).station 9).state = .joining
      ∧ imageFits (p.station 9) cellarImage = false ∧ (live (addressed 9 .describe)).plant.sbc.exchange = some ⟨9, .describe⟩
      ∧ goesOn (exec (.statusAccepted (statusOf9 false)) (live (addressed 9 .poll))) := by decide +kernel

def describe9 (taps : Nat) : Descriptor := ⟨.val .tap, true, taps, 0, 0, 0, 0, 0⟩

theorem test_descriptor :
    let joining := (live fun p => inState 9 (fun x => { x with state := .joining }) (addressed 9 .describe p)).plant
    let scanned := (config (addressed 5 .scan)).plant
    joining.sbc.exchange = some ⟨9, .describe⟩ ∧ (joining.station 9).state = .joining ∧ joining.sbc.closeAllDue = false
      ∧ descriptorFits (joining.station 9) (describe9 2) = true ∧ descriptorFits (joining.station 9) (describe9 3) = false
      ∧ (joining.modSbc fun b => { b with closeAllDue := true }).sbc.closeAllDue = true
      ∧ scanned.sbc.exchange = some ⟨5, .scan⟩ ∧ (scanned.station 5).kind = none
      ∧ (live (addressed 9 .clearAttention)).plant.sbc.exchange = some ⟨9, .clearAttention⟩
      ∧ (live (addressed 9 .poll)).plant.sbc.exchange = some ⟨9, .poll⟩ ∧ (live id).plant.sbc.exchange = none := by decide +kernel

/-- A DESCRIPTOR of a station redefined in its DESCRIBE's exchange ends the exchange and is not stored (log 97). -/
theorem test_descriptor_redefined :
    let s := live fun p => inState 9 (fun x => { x with state := .absent, reported := none }) (addressed 9 .describe p)
    let t := after (exec (.descriptorAccepted 9 (describe9 2)) s)
    s.plant.sbc.exchange = some ⟨9, .describe⟩ ∧ (s.plant.station 9).state = .absent ∧ t.plant.sbc.exchange = none
      ∧ t.plant.station 9 = s.plant.station 9 := by decide +kernel

theorem test_redefinition :
    let p := (config fun p => p.setSource 12 { source 0 .vacant none with pours := 1 }).plant
    (p.station 26).kind ≠ some .tap
      ∧ ((after (exec (.defineStation hdr 26 (.val .cellar) 0 3) { config id with plant := p })).plant.source 12).pours = 1 := by
  decide +kernel

theorem test_rescanTwice :
    let s := live (inState 9 fun x => { x with initialPending := true })
    Taken Kind.rescanStation (.rescanStation hdr 9) s
      ∧ ((after (exec (.rescanStation hdr 9) s)).plant.station 9).dueNext = false
      ∧ ((after (exec (.rescanStation hdr 9) (live id))).plant.station 9).dueNext = true := by decide +kernel

theorem test_busCharacters :
    (BusFrame.attention 2).characters.take 4
        = [⟨0#8, true, true⟩, ⟨2#8, false, true⟩, ⟨3#8, false, true⟩, ⟨2#8, false, true⟩]
      ∧ (BusFrame.describe 30).characters.take 3 = [⟨30#8, true, true⟩, ⟨1#8, false, true⟩, ⟨1#8, false, true⟩]
      ∧ BusFrame.closeAll.characters.length = 5
      ∧ (BusFrame.poll 9 (.tap [(.openTo 0x030201#24, .off)])).body.take 5 = [2#8, 1#8, 1#8, 2#8, 3#8] := by decide +kernel

/-- A STATUS of station 9 as it comes over the bus, and what spoils it. -/
def statusBody : List Byte := [130#8, 5#8, 1#8, 0#8, 0#8, 0#8, 100#8, 0#8, 0#8, 0#8, 7#8, 0#8, 0#8, 1#8, 2#8, 0#8]

theorem test_readReply :
    let p := (live id).plant
    let good := busCharacters 9 statusBody
    p.readReply ⟨9, .poll⟩ good
        = some (.status ⟨9, true, false, true, .tap [⟨true, false, false, false, 100#24⟩, ⟨false, true, false, false, 513#24⟩]⟩)
      ∧ p.readReply ⟨9, .describe⟩ (busCharacters 9 [129#8, 0#8, 1#8, 2#8, 0#8, 0#8, 0#8, 0#8, 0#8])
          = some (.descriptor 9 ⟨.val .tap, true, 2, 0, 0, 0, 0, 0⟩)
      ∧ p.readReply ⟨9, .describe⟩ good = none ∧ p.readReply ⟨10, .poll⟩ good = none
      ∧ p.readReply ⟨9, .poll⟩ (good.set 0 ⟨9#8, false, true⟩) = none ∧ p.readReply ⟨9, .poll⟩ (good.set 3 ⟨5#8, false, false⟩) = none
      ∧ p.readReply ⟨9, .poll⟩ (good.set 3 ⟨4#8, false, true⟩) = none ∧ p.readReply ⟨9, .poll⟩ (good.dropLast) = none
      ∧ p.readReply ⟨9, .poll⟩ (good ++ [⟨0#8, false, true⟩]) = none := by
  decide +kernel

theorem test_missed :
    let s := live (addressed 9 .poll)
    let whole := (busCharacters 9 statusBody).map BusChar.bits
    let missed (late : Bool) (l : List BusBits) : Station := (after (exec (.replyMiss ⟨late, l⟩) s)).plant.station 9
    ((after (exec (.replyMiss ⟨false, whole⟩) s)).plant.sbc.exchange = s.plant.sbc.exchange)
      ∧ ((missed true whole).misses, (missed true whole).noise) = (1, 1) ∧ (missed false []).noise = 0
      ∧ (missed false [BusChar.bits ⟨9#8, true, true⟩]).noise = 1 := by
  decide +kernel

/-- The 11 bits of a character: the start bit, the data bits from the least significant on, the mark bit, the stop bit. -/
theorem test_busBits :
    (BusChar.bits ⟨0xA6#8, true, true⟩).toList = [false, false, true, true, false, false, true, false, true, true, true]
      ∧ (BusChar.bits ⟨1#8, false, false⟩).toList = [false, true, false, false, false, false, false, false, false, false, false]
      ∧ charOf (BusChar.bits ⟨0xA6#8, true, false⟩) = ⟨0xA6#8, true, false⟩
      ∧ WellFormed.instr (.replyMiss ⟨false, [BusChar.bits ⟨1#8, true, true⟩]⟩) = true
      ∧ WellFormed.instr (.replyMiss ⟨false, [(BusChar.bits ⟨1#8, true, true⟩).set 0 true]⟩) = false := by decide +kernel

/-- A STATUS of each other type, and a DESCRIPTOR with no type. -/
theorem test_readByType :
    let p := (live id).plant
    p.readReply ⟨26, .poll⟩ (busCharacters 26 ([130#8, 0#8] ++ List.replicate 16 1#8 ++ List.replicate 12 0#8))
        = some (.status ⟨26, false, false, false, cellarImage⟩)
      ∧ p.readReply ⟨2, .poll⟩ (busCharacters 2 ([130#8, 2#8, 0xEC#8, 0xFF#8] ++ List.replicate 6 0#8
            ++ (List.replicate 8 [20#8, 0#8]).flatten ++ List.replicate 8 1#8))
          = some (.status ⟨2, false, true, false, coolingImage⟩)
      ∧ p.readReply ⟨3, .poll⟩ (busCharacters 3 [130#8, 0#8, 0#8, 1#8, 0#8, 1#8, 4#8, 3#8, 2#8, 0#8, 0#8, 9#8, 0#8, 0#8, 1#8])
          = some (.status ⟨3, false, false, false,
              .cleaning #v[false, true, false] #v[⟨true, 0x020304#24, false⟩, ⟨false, 9#24, true⟩]⟩)
      ∧ p.readReply ⟨26, .poll⟩ (busCharacters 26 ([130#8, 0#8] ++ List.replicate 27 1#8)) = none
      ∧ p.readReply ⟨5, .scan⟩ (busCharacters 5 [129#8, 255#8, 0#8, 0#8, 16#8, 12#8, 0#8, 0#8, 0#8])
          = some (.descriptor 5 ⟨.absent, false, 0, 16, 12, 0, 0, 0⟩) := by decide +kernel

/-- FAST by the type of the station; a paused return keeps its line in beer return. -/
theorem test_fast :
    (live pouring).plant.fast 9 = true ∧ (live id).plant.fast 9 = false ∧ (live id).plant.fast 26 = false
      ∧ (live fun p => p.setLine 7 { line .changeover .gas [12, 13] with change := some changing }).plant.fast 26 = true
      ∧ (live (cleaning { job .paused none with returnLine := some 7 })).plant.fast 26 = true
      ∧ (live (cleaning (job .running none))).plant.fast 3 = true ∧ (live id).plant.fast 3 = false
      ∧ (live id).plant.fast 2 = false := by decide +kernel

/-- A CELLAR station of the description that becomes a TAP station: its owners have the loss, its positions are unbound, its line's
chain is empty. A TAP station that stays one keeps its queue; one that does not loses it, and its tap is OFFLINE. -/
theorem test_redefined :
    let p := (config fun p => p.setLine 7 (line .outOfService .beer [12, 13])).plant
    let q (a : Nat) (k : EnumField StationType) (taps : Nat) : Plant :=
      (after (exec (.defineStation hdr a k taps 1) { config id with plant := p.setMarks 9 8 })).plant
    p.active 26 = true ∧ (p.source 12).bound = some (26, 0) ∧ (p.tap 30).off = false
      ∧ ((q 26 (.val .tap) 4).source 12).bound = none ∧ ((q 26 (.val .tap) 4).line 7).map (fun x => (x.chain, x.unsupervised)) = some ([], true)
      ∧ ((q 26 (.val .cellar) 0).source 16).bound = some (26, 0) ∧ ((q 26 (.val .cellar) 0).source 31).bound = some (26, 15)
      ∧ ((q 26 (.val .cellar) 0).source 32).bound = none ∧ ((q 26 (.val .cellar) 0).source 15).bound = none
      ∧ ((q 9 (.val .tap) 4).queue 9, (q 9 (.val .tap) 4).marksOf 9) = ([0], 8)
      ∧ ((q 9 (.val .tap) 4).tap 30).state = .offline ∧ ((q 9 (.val .tap) 4).station 9).state = .absent
      ∧ ((after (exec (.defineStation hdr 9 (.val .tap) 4 0)
          { config id with plant := (p.setQueue 9 []).setMarks 9 8 })).plant.station 9).taps = 4
      ∧ (after (exec (.defineStation hdr 9 .absent 0 0) { config id with plant := (p.setQueue 9 []).setMarks 9 8 })).plant.marksOf 9 = 0 := by
  decide +kernel

/-- An unused address, read with step EVERY: every field is absent. A field that records a state has that state's number. -/
theorem test_entries :
    ((live id).plant.fStation 5).all (· == 0xFF#8) = true
      ∧ (ClaimedFrom.num .queued, ClaimedFrom.num .part) = (1, 3) ∧ (JoinedFrom.num .absent, JoinedFrom.num .lost) = (0, 3)
      ∧ ((fJob (some { job .paused none with pausedFrom := some .beerReturn })).drop 6).take 1 = [5#8] := by decide +kernel

theorem test_endOfRound :
    let p := (live fun p => visiting (.calls 4) (addressed 9 .poll p)).plant
    p.endExchange.sbc.round = 1 ∧ p.endExchange.sbc.phase = .visit 1
      ∧ (p.modSbc fun b => { b with scan := some [] }).endExchange.sbc.phase = .scanning 1
      ∧ (visiting (.calls 3) p).endExchange.sbc.phase = .calls 3 ∧ (visiting (.calls 3) p).endExchange.sbc.exchange = none := by
  decide +kernel

theorem test_reportsByType :
    let p := (live id).plant
    (p.station 9).kind = some .tap ∧ (p.station 26).kind = some .cellar ∧ (p.station 2).kind = some .cooling
      ∧ (p.station 3).kind = some .cleaning ∧ ((p.lossReport 26).line 7).map (·.unsupervised) = some true
      ∧ (p.lossReport 2).cc.graceEnd = some 60000 := by decide +kernel

/-- An ACTIVE station's STATUS as a change, as initial values, and with a restart; a JOINING one's, and with a restart. -/
theorem test_statusTaken :
    let taken (f : Station → Station) (restarted : Bool) : Station :=
      (after (exec (.statusAccepted (statusOf9 restarted)) (live fun p => inState 9 f (addressed 9 .poll p)))).plant.station 9
    ((taken id false).state, (taken id false).misses) = (.active, 0)
      ∧ (taken (fun x => { x with initialPending := true }) false).initialPending = false
      ∧ ((taken id true).state, (taken id true).joinedFrom, (taken id true).restarts) = (.joining, some .lost, 1)
      ∧ (taken (fun x => { x with state := .joining, descriptorAccepted := true, trace := true }) false).state = .active
      ∧ (taken (fun x => { x with state := .joining, descriptorAccepted := true }) true).descriptorAccepted = false := by decide +kernel

/-- A STATUS of a station that is ABSENT in its POLL's exchange, as a redefinition leaves it, raises the trace notices, 5 for each tap,
with the restarted flag too, and changes nothing else; an untraced one's raises none (R100). -/
theorem test_statusTracedWhileAbsent :
    let traced (on restarted : Bool) : State := after (exec (.statusAccepted (statusOf9 restarted))
      (live fun p => inState 9 (fun x => { x with state := .absent, trace := on, inputs := none }) (addressed 9 .poll p)))
    (traced true false).hl.notices.map (fun n => (n.kind, n.subject, n.first)) = (List.range 10).map (fun i => (.inputTrace, 9, i))
      ∧ (traced true true).hl.notices.length = 10 ∧ (traced false false).hl.notices = []
      ∧ ((traced true true).plant.station 9).state = .absent ∧ ((traced true true).plant.station 9).inputs = none
      ∧ ((traced true true).plant.station 9).restarts = 0 ∧ (traced true true).plant.sbc.exchange = none := by decide +kernel

theorem test_scanOfDefined :
    let s := live fun p => (addressed 9 .scan p).modSbc fun b => { b with scan := some [] }
    let t := after (exec (.descriptorAccepted 9 (describe9 2)) s)
    let u := after (exec (.descriptorAccepted 9 { describe9 2 with restarted := false }) s)
    s.plant.sbc.exchange = some ⟨9, .scan⟩ ∧ (s.plant.station 9).state = .active ∧ (t.plant.station 9).state = .joining
      ∧ t.plant.sbc.scan = some [(9, describe9 2)] ∧ (u.plant.station 9).state = .active
      ∧ (u.plant.station 9).reported = some { describe9 2 with restarted := false } := by decide +kernel

/-! ### Cellar cooling -/

theorem test_setCooling :
    Taken Kind.setCooling (.setCooling hdr (some (-40)) (some 100) (some 20) (.val .programmed) (some 60) (some 900)) (live id)
      ∧ Taken Kind.setCooling (.setCooling hdr none none none (.val .standard) none none) (live id)
      ∧ Taken Kind.setCooling (.setCooling hdr (some 20) (some 5) (some 0) .absent none none) State.reset := by decide +kernel

def cooled (f : Cc → Cc) : State := live fun p => p.modCc f

theorem test_surge :
    Taken Kind.surgeHint (.surgeHint hdr 1800) (live id) ∧ Taken Kind.surgeHint (.surgeHint hdr 0) (live id)
      ∧ (cooled fun c => { c with hintEnd := some 9 }).plant.cc.hintEnd = some 9
      ∧ (cooled fun c => { c with window := [(0, 30000), (5, 700)] }).plant.cc.window = (0, 30000) :: [(5, 700)]
      ∧ (live id).plant.cc.hintEnd = none ∧ (live id).plant.cc.window = [] := by decide +kernel

/-- A pair joins the window's tail, or with 512 held the tail pair. -/
theorem test_addLoad :
    let held := fun n => (cooled fun c => { c with window := List.replicate n (1, 2) }).plant.cc.addLoad 7 3
    (held 511).window = List.replicate 511 (1, 2) ++ [(7, 3)] ∧ (held 512).window = List.replicate 511 (1, 2) ++ [(1, 5)]
      ∧ (held 512).surge = false ∧ (cooled fun c => { c with threshold := 1 }).plant.cc.surge = false
      ∧ ((cooled fun c => { c with threshold := 1, offset := 5 }).plant.cc.addLoad 7 1000).effective
          = (live id).plant.cc.setpoint - 5 := by decide +kernel

theorem test_trunkRequests :
    Taken Kind.defineTrunk (.defineTrunk hdr 7 (.val true) (some 0) (some 10)) (live id)
      ∧ Taken Kind.defineTrunk (.defineTrunk hdr 5 (.val false) none none)
          (live fun p => p.setTrunk 5 { Trunk.fresh with inUse := true, state := .hot })
      ∧ Taken Kind.clearStageTrip (.clearStageTrip hdr 2) (live fun p => p.setStage 2 { p.stage 2 with tripped := true })
      ∧ Taken Kind.clearPumpFault (.clearPumpFault hdr 2) (live id) := by decide +kernel

theorem test_stages :
    let c := (cooled fun c => { c with state := .running, lastBath := some (-9) }).plant.cc
    let d : Cc := { c with lastBath := some (-21), stages := c.stages.set 0 { c.stages[0] with command := true, lastChange := some 5 } }
    c.lastBath = some (-9) ∧ c.state = .running ∧ c.probeFault = false ∧ c.effective + 5 < -9 ∧ c.order.find? (fun k => !(c.stage k).command) = some 0
      ∧ (c.judgeStages 0).stage 0 = { c.stage 0 with command := true, lastChange := some 0 }
      ∧ d.lastBath = some (-21) ∧ -21 < d.effective - 5
      ∧ d.order.reverse.find? (fun k => (d.stage k).command) = some 0 ∧ d.judgeStages 180004 = d
      ∧ (d.judgeStages 180005).order = [1, 2, 0] := by decide +kernel

theorem test_coolingTimers :
    (cooled fun c => { c with state := .running, degradeEnd := some 300000 }).plant.cc.degradeEnd = some 300000
      ∧ (cooled fun c => { c with state := .degraded, degradeEnd := some 300000 }).plant.cc.state ≠ .running
      ∧ ((live fun p => p.setTrunk 7 { Trunk.fresh with pumpEnd := some 10000 }).plant.trunk 7).pumpEnd = some 10000
      ∧ (cooled fun c => { c with graceEnd := some 60000 }).plant.cc.graceEnd = some 60000 ∧ ((live id).plant.trunk 2).inUse = true
      ∧ ((live id).plant.trunk 0).inUse = false ∧ (live id).plant.cc.degradeEnd = none ∧ ((live id).plant.trunk 7).pumpEnd = none
      ∧ (live id).plant.cc.graceEnd = none := by decide +kernel

def tripping (n : Nat) : Vector Bool 3 := Vector.ofFn fun i => i.val = n

theorem test_trips :
    let p := (cooled fun c => { c with
      state := .running, stages := c.stages.map fun s => { s with tripped := true, command := true } }).plant
    let q := p.setStage 2 { p.stage 2 with tripped := false }
    (q.tripStage 2).cc.state = .degraded ∧ (q.tripStage 1) = q ∧ (q.tripStage 2).raised.map (·.kind) = [.stageTrip, .coolingState]
      ∧ (((live id).plant.tripStage 0).stage 0).tripped = true ∧ ((live id).plant.tripStage 0).cc.state = .off
      ∧ (((live fun p => p.setStage 0 { p.stage 0 with command := true }).plant.tripStage 0).cc.order) = [1, 2, 0] := by decide +kernel

/-- A trunk's state at the edges of Table 6-4, with warm 40 and hot 70. -/
theorem test_trunkReadings :
    let read (st : TrunkState) (t : Int) : TrunkState :=
      ((((live fun p => p.setTrunk 2 { Trunk.fresh with inUse := true, state := st }).plant.takeTrunks (Vector.replicate 8 t)
        (Vector.replicate 8 true)).trunk 2).state)
    [read .normal 70, read .hot 65, read .normal 65, read .normal 64, read .normal 40, read .hot 39, read .warm 35, read .normal 35,
        read .warm 34, read .normal 400, read .normal (-200), read .normal 401, read .normal (-201)]
      = [.hot, .hot, .warm, .warm, .warm, .warm, .warm, .normal, .normal, .hot, .normal, .probeFault, .probeFault] := by decide +kernel

theorem test_pumpReadings :
    let take (b : Bool) (f : Trunk → Trunk) : Trunk :=
      (((live fun p => p.setTrunk 2 (f { Trunk.fresh with inUse := true })).plant.takeTrunks (Vector.replicate 8 20)
        (Vector.replicate 8 b)).trunk 2)
    (take false id).pumpEnd = some 10000 ∧ (take true fun t => { t with pumpEnd := some 5 }).pumpEnd = none
      ∧ (take false fun t => { t with pumpFault := true }).pumpEnd = none
      ∧ (((live id).plant.takeTrunks (Vector.replicate 8 20) (Vector.replicate 8 true)).trunk 0).feedback = none := by decide +kernel

theorem test_degrade :
    let judged (st : CoolingState) (bath : Int) (f : Cc → Cc) : Cc :=
      (cooled fun c => f { c with state := st, lastBath := some bath }).plant.judgeDegrade.cc
    (judged .running 16 id).degradeEnd = some 300000 ∧ (judged .running 15 fun c => { c with degradeEnd := some 9 }).degradeEnd = none
      ∧ (judged .running (-15) fun c => { c with probeFault := true, degradeEnd := some 9 }).degradeEnd = some 9
      ∧ (judged .degraded (-5) id).state = .running ∧ (judged .degraded (-4) id).state = .degraded
      ∧ (judged .unsupervised 20 id).degradeEnd = none ∧ (Cc.reset.takeBath 400).lastBath = some 400
      ∧ (Cc.reset.takeBath 401).probeFault = true ∧ (Cc.reset.takeBath (-201)).lastBath = none := by decide +kernel

theorem test_coolingLossAndJoin :
    let running := (cooled fun c => { c with state := .running }).plant
    running.coolingLoss.cc.state = .unsupervised ∧ (live id).plant.coolingLoss.cc.state = .off ∧ (live id).plant.coolingJoin.cc.state = .running
      ∧ (config id).plant.coolingJoin.cc.state = .off ∧ running.coolingJoin.cc.state = .running
      ∧ (cooled fun c => { c with stages := c.stages.map fun s => { s with tripped := true } }).plant.coolingJoin.cc.state = .degraded
      ∧ (running.coolingStatus (-9) (tripping 3) (tripping 3) (Vector.replicate 8 20) (Vector.replicate 8 true)).cc.lastBath = some (-9) := by
  decide +kernel

/-- The notices of the join, and of the grace timer's end for the trunks that were not UNKNOWN. -/
theorem test_coolingNotices :
    let tripped := (cooled fun c => { c with stages := c.stages.map fun s => { s with tripped := true } }).plant
    let late := (live fun p => p.setTrunk 7 { Trunk.fresh with inUse := true, state := .unknown }).plant
    (live id).plant.coolingJoin.raised = [⟨.coolingState, 0, 1, CoolingCause.num .joined, 0#32⟩]
      ∧ tripped.coolingJoin.raised = [⟨.coolingState, 0, 2, CoolingCause.num .allTripped, 0#32⟩]
      ∧ (late.graceOut.raised.filter fun n => n.kind == .trunkState)
          = [⟨.trunkState, 2, TrunkState.num .unknown, TrunkCause.num .graceEnd, 0#32⟩] := by decide +kernel

/-! ### Line cleaning -/

def pushWater : StepField := ⟨.val .push, .val .water, none, some 10, none, none, .absent, none⟩
def proveWater : StepField := ⟨.val .prove, .val .water, none, none, some 100, some 1800, .val .again, some 3⟩

theorem test_defineProgramme :
    Taken Kind.defineProgramme (.defineProgramme hdr 5 (some [pushWater, proveWater])) (live id)
      ∧ Taken Kind.defineProgramme (.defineProgramme hdr 0 (some [])) (live id)
      ∧ Taken Kind.defineProgramme (.defineProgramme hdr 0 none) (live id)
      ∧ listFault 0 [pushWater, proveWater] = none ∧ listFault 0 [proveWater] ≠ none
      ∧ stepsValid [.push .caustic 40, .prove .water 100 30 none] = true ∧ stepsValid [.prove .water 100 30 none, .push .caustic 40] = false := by
  decide +kernel

/-- Bodies written out byte by byte (Table 11-1, Table 11-3). -/
theorem test_readRequest :
    readRequest 0 [39#8, 7#8] = .identify hdr
      ∧ readRequest 0 ([1#8, 7#8, 3#8, 0x3A#8, 0x11#8, 0x41#8] ++ List.replicate 11 0x20#8 ++ List.replicate 4 0xFF#8 ++ [0xF4#8, 1#8, 0#8, 0#8])
          = .defineProduct hdr 3 4410 [0x41#8] none 500
      ∧ readRequest 0 [22#8, 7#8, 0xF1#8, 0xFF#8, 0xFF#8, 0xFF#8, 0xFF#8, 0x7F#8, 1#8, 120#8, 0#8, 0x2C#8, 1#8]
          = .setCooling hdr (some (-15)) none none (.val .programmed) (some 120) (some 300)
      ∧ readRequest 0 [13#8, 7#8, 30#8, 2#8, 0x10#8, 0x27#8, 0xFF#8, 0xFF#8] = .setTap hdr 30 (.bad 2) (some 10000) none
      ∧ readRequest 0 ([31#8, 7#8] ++ List.replicate 4 0xFF#8 ++ [16#8, 0#8]) = .readJournal hdr none 16
      ∧ readRequest 0 [20#8, 7#8, 9#8, 0#8] = .traceStation hdr 9 (.val true)
      ∧ readRequest 0 [23#8, 7#8, 2#8, 0#8, 0xFF#8, 0x7F#8, 0x64#8, 0#8] = .defineTrunk hdr 2 (.val false) none (some 100) := by decide +kernel

/-- The two kinds with a list, and bodies that fit no layout. -/
theorem test_readLists :
    readRequest 0 [28#8, 7#8, 2#8, 2#8, 7#8, 9#8, 0#8] = .requestClean hdr 2 [7, 9] 0
      ∧ readRequest 0 [27#8, 7#8, 5#8, 0#8] = .defineProgramme hdr 5 (some []) ∧ readRequest 0 [27#8, 7#8, 5#8, 255#8] = .defineProgramme hdr 5 none
      ∧ readRequest 0 ([27#8, 7#8, 5#8, 1#8] ++ [0#8, 0#8, 0xFF#8, 0xFF#8, 10#8] ++ List.replicate 8 0xFF#8)
          = .defineProgramme hdr 5 (some [pushWater])
      ∧ readRequest 1 [28#8, 7#8, 2#8, 3#8, 7#8, 9#8, 0#8] = .requestClean ⟨7#8, 1, some 7⟩ 2 [7, 9, 0] 0
      ∧ readRequest 0 [39#8, 7#8, 0#8] = .identify ⟨7#8, 0, some 3⟩
      ∧ readRequest 0 [45#8, 7#8, 1#8] = .unknownKind hdr 45#8 ∧ readRequest 0 [0#8, 7#8] = .unknownKind hdr 0#8
      ∧ requestBody (.requestClean hdr 2 [7, 9] 0) = [28#8, 7#8, 2#8, 2#8, 7#8, 9#8, 0#8]
      ∧ WellFormed.instr (.requestClean hdr 2 [7, 9] 0) = true := by decide +kernel

/-- The frame of IDENTIFY with tag 7, one byte of it noisy: its last byte brings the request. -/
theorem test_frameRequest :
    let v := fun b => rx b false
    let l := [v 0xA5#8, v 2#8, ⟨39#8, true, false⟩, v 7#8].foldl Hl.takeByte (receiving .hunting)
    let crc := crc16 [2#8, 39#8, 7#8]
    let last := l.takeByte (v (crc.setWidth 8))
    leBytes 2 crc.toNat = [crc.setWidth 8, (crc >>> 8).setWidth 8]
      ∧ last.receiver.request (v ((crc >>> 8).setWidth 8)) = some (.identify ⟨7#8, 1, none⟩)
      ∧ last.receiver.request (v ((crc >>> 8).setWidth 8 + 1)) = none ∧ l.receiver.request (v 0#8) = none
      ∧ (last.takeByte (v ((crc >>> 8).setWidth 8))).receiver = .hunting := by decide +kernel

theorem test_requestClean :
    Taken Kind.requestClean (.requestClean hdr 2 [7] 0) (live fun p => p.setProgramme 0 (some programme))
      ∧ (live id).plant.job (live id).plant.cs.nextJob = none := by decide +kernel

def cleaned (st : JobState) (timer : Option (JobTimer × Nat)) (f : Job → Job) : State := live (cleaning (f (job st timer)))

theorem test_abortClean :
    Taken Kind.abortClean (.abortClean hdr 1) (cleaned .queued none fun j => { j with circuit := none, step := none })
      ∧ Taken Kind.abortClean (.abortClean hdr 1) (cleaned .running (some (.push, 9)) id)
      ∧ Taken Kind.clearCircuitFault (.clearCircuitFault hdr 1)
          (live fun p => p.setCircuit 1 { Circuit.fresh with state := .fault, faultCause := some .timeout }) := by decide +kernel

theorem test_jobLimits :
    ((cleaned .draining (some (.draining, 9)) id).plant.job 1).bind (·.timer) = some (.draining, 9)
      ∧ ((cleaned .capCheck (some (.cap, 9)) id).plant.job 1).bind (·.timer) = some (.cap, 9)
      ∧ ((cleaned .running (some (.push, 9)) id).plant.job 1).bind (·.timer) = some (.push, 9)
      ∧ ((cleaned .paused (some (.pause, 9)) id).plant.job 1).bind (·.timer) = some (.pause, 9)
      ∧ ((cleaned .running none id).plant.job 1).map (·.timer) = some none
      ∧ goesOn (exec (.capTimerExpiry 1) (cleaned .capCheck (some (.cap, 9)) id)) := by decide +kernel

theorem test_drainingPours :
    let p := (live fun p => pouring (cleaning (job .draining (some (.draining, 9))) p)).plant
    (p.tap 30).line = some 7 ∧ (p.tap 30).state = .pouring ∧ (p.tap 30).cleaning = false ∧ p.tapOnline (p.tap 30) = true
      ∧ (p.tap 30).pour = some pour := by decide +kernel

theorem test_stepTimers :
    let soaking := (cleaned .running (some (.duration, 9)) id).plant
    let pulsing := (cleaned .running (some (.duration, 9)) fun j => { j with step := some 1, phase := some (true, 7) }).plant
    let proving := (cleaned .running (some (.prove, 9)) fun j => { j with step := some 2 }).plant
    ((soaking.job 1).bind (·.timer) = some (.duration, 9) ∧ (soaking.stepsOf 0)[0 + 1]? = some (.pulse .water 60)
        ∧ soaking.cs.tankOk .water = true)
      ∧ ((pulsing.job 1).bind (·.phase) = some (true, 7) ∧ (pulsing.job 1).bind pulsing.currentStep = some (.pulse .water 60))
      ∧ ((proving.job 1).bind proving.currentStep = some (.prove .water 500 60 none) ∧ (proving.job 1).bind (·.timer) = some (.prove, 9))
      ∧ (let again := proving.setProgramme 0 (some ⟨[.push .water 10, .prove .water 500 60 (some 1)], true⟩)
         (again.stepsOf 0)[0]? = some (.push .water 10) ∧ (again.stepsOf 0)[1]? = some (.prove .water 500 60 (some 1))) := by decide +kernel

theorem test_returnAndFlush :
    let returning := (cleaned .beerReturn (some (.beerReturn, 9)) fun j => { j with returnLine := some 7 }).plant
    let flushing := (cleaned .flushing (some (.flush, 9)) fun j => { j with abortCause := some .host }).plant
    (returning.job 1).bind (·.returnLine) = some 7 ∧ (returning.job 1).bind (·.timer) = some (.beerReturn, 9)
      ∧ (returning.line 7).map (·.state) = some .cleaning ∧ (flushing.job 1).bind (·.timer) = some (.flush, 9)
      ∧ goesOn (exec (.returnTimerExpiry 1) (cleaned .beerReturn (some (.beerReturn, 9)) fun j => { j with returnLine := some 7 })) := by
  decide +kernel

theorem test_strayOnFail :
    listFault 0 [{ pushWater with onFail := .bad 2 }] ≠ none ∧ (pushWater.onFail = .absent)
      ∧ (([pushWater] : List StepField)[0]? = some pushWater) := by decide +kernel

def jobPlant (st : JobState) (timer : Option (JobTimer × Nat)) (f : Job → Job) : Plant := (cleaned st timer f).plant
def circuit (f : Circuit → Circuit) (p : Plant) : Plant := p.modCircuit 0 f
def metered (n : Nat) : Plant → Plant := circuit fun c => { c with meter := some (BitVec.ofNat 24 n) }
def capped (p : Plant) : Plant := p.setTap 30 { tap .cleaning with cleaning := true, capImage := some true }
def lineAs (st : LineState) (c : Content) (chain : List Nat) (p : Plant) : Plant := p.setLine 7 { line st c chain with job := some 1 }
def chem (j : Job) : Job := { j with chemical := true }
def kept (p : Plant) : Option JobState := (p.job 1).map (·.state)
def lineOf (p : Plant) : Option (LineState × Content) := (p.line 7).map fun x => (x.state, x.content)

/-- R150's conditions, one after the other. -/
theorem test_flushFaults :
    let p := capped (jobPlant .running none chem)
    let j := chem (job .running none)
    p.flushFault j = none ∧ (p.modStation 26 fun x => { x with state := .lost }).flushFault j = some .stationLost
      ∧ (p.modStation 9 fun x => { x with state := .lost }).flushFault j = some .stationLost
      ∧ (p.modMsc fun m => { m with stop := .active }).flushFault j = some .stop
      ∧ ({ p with cs := { p.cs with tanks := none } } : Plant).flushFault j = some .tankLow
      ∧ (p.setTap 30 (tap .cleaning)).flushFault j = some .cap ∧ (p.job 1) = some j := by decide +kernel

/-- An abort with chemical in the lines: the flush runs, or fails; without, Table 7-6 by the line's content. -/
theorem test_aborted :
    let p := capped (jobPlant .running none chem)
    let none_ := fun c chain => (lineAs .cleaning c chain (capped (jobPlant .running none id))).abortJob 1 .host
    kept (p.abortJob 1 .host) = some .flushing ∧ ((p.abortJob 1 .host).circuit 0).out.medium = some .water
      ∧ kept ((p.setTap 30 (tap .cleaning)).abortJob 1 .host) = none
      ∧ (((p.setTap 30 (tap .cleaning)).abortJob 1 .host).circuit 0).faultCause = some .cap
      ∧ lineOf ((p.setTap 30 (tap .cleaning)).abortJob 1 .host) = some (.locked, .unproven)
      ∧ [lineOf (none_ .beer [12]), lineOf (none_ .beer []), lineOf (none_ .gas [12]), lineOf (none_ .water []), lineOf (none_ .cleaner [])]
          = [some (.serving, .beer), some (.dry, .gas), some (.dry, .gas), some (.locked, .water), some (.locked, .unproven)]
      ∧ lineOf ((lineAs .cleaning .cleaner [] (jobPlant .running none fun j => { chem j with proof := true })).abortJob 1 .host)
          = some (.locked, .water)
      ∧ lineOf ((lineAs .draining .beer [12] (jobPlant .draining none id)).abortJob 1 .host) = some (.serving, .beer)
      ∧ ((none_ .beer [12]).tap 30).released = true ∧ ((none_ .beer [12]).circuit 0).state = .free := by decide +kernel

/-- An id that an unfinished job holds is passed over, 254 by 1. -/
theorem test_heldId :
    let s := fun held next => live fun p =>
      let q := ((cleaning { job .running none with id := held } p).setLine 8 { line .serving .beer [] with index := 1 }).setTap 31
        { tap .idle with station := some (9, 1), line := some 8 }
      { q with cs := { q.cs with nextJob := next } }
    let taken := fun t : State => (t.plant.cs.jobs.map (·.id), t.plant.cs.nextJob)
    Taken Kind.requestClean (.requestClean hdr 2 [8] 0) (s 1 1) ∧ (s 1 1).plant.job 1 ≠ none
      ∧ taken (after (exec (.requestClean hdr 2 [8] 0) (s 1 1))) = ([1, 2], 3)
      ∧ taken (after (exec (.requestClean hdr 2 [8] 0) (s 254 254))) = ([254, 1], 2)
      ∧ taken (after (exec (.requestClean hdr 2 [8] 0) (s 1 254))) = ([1, 254], 1) := by decide +kernel

/-- A stop ends the jobs that hold a circuit, the oldest first, a FLUSHING one too, and leaves the queued one. -/
theorem test_stopEndsJobs :
    let two : Plant → Plant := fun p =>
      let q := (cleaning (job .running none) p).setCircuit 1 { Circuit.fresh with state := .busy, job := some 2 }
      { q with cs := { q.cs with jobs := q.cs.jobs ++
        [{ job .queued none with id := 3, circuit := none, step := none, lines := [], remaining := [] }, { chem (job .flushing none) with id := 2, circuit := some 1, trunk := 1, lines := [], remaining := [], capSet := [], abortCause := some .host }] } }
    let s := live fun p => two { p with au := { p.au with journal := [] } }
    let t := after (exec (.stop hdr) s)
    t.plant.cs.jobs.map (·.id) = [3] ∧ t.plant.cs.hold = true
      ∧ t.plant.au.journal.map (fun e => match e.body with | .cleanRun j _ _ c f _ => some (j, c, f) | _ => none)
          = [none, some (1, some .stop, .notRun), some (2, some .host, .failed)]
      ∧ (t.plant.circuit 1).faultCause = some .stop ∧ (s.plant.job 2).map (·.state) = some .flushing := by decide +kernel

/-- The stations of a job: of its lines left, and of its cap set, or of its lines' taps while it drains. -/
theorem test_jobStations :
    let draining := { job .draining none with capSet := [] }
    let p := fun j => (live (cleaning j)).plant
    (p (job .running none)).jobStations (job .running none) = [26, 9] ∧ (p draining).jobStations draining = [26, 9]
      ∧ kept ((p draining).csLoss 9) = none ∧ kept ((p { draining with state := .capCheck }).csLoss 9) = some .capCheck
      ∧ kept ((p { job .running none with remaining := [] }).csLoss 26) = some .running := by decide +kernel

theorem test_stationLostJobs :
    let p := capped (jobPlant .running none id)
    let q := capped (jobPlant .flushing none chem)
    (p.station 3).kind = some .cleaning ∧ (job .running none).circuit.isSome = true ∧ (p.jobStations (job .running none)).contains 26 = true
      ∧ kept (p.csLoss 26) = none ∧ ((q.csLoss 9).circuit 0).faultCause = some .stationLost ∧ (p.csLoss 3).cs.tanks = none
      ∧ kept (p.csLoss 2) = some .running ∧ (q.job 1).map (·.state) = some .flushing
      ∧ (p.endJob 1 .stationLost .tankLow).raised.getLast?.map (·.kind) = some .jobState := by decide +kernel

def queued (p : Plant) : Plant :=
  ((({ p with cs := { p.cs with jobs := [{ job .queued none with circuit := none, step := none }] } }).setCircuit 0 Circuit.fresh).setLine 7
    { line .serving .beer [12, 13] with job := some 1 }).modCc fun c => { c with gate := true }

/-- CS's grant, and what keeps it back. -/
theorem test_grant :
    let p := queued (jobPlant .queued none id)
    let granted := p.csNext.getD p
    (granted.job 1).map (fun j => (j.state, j.circuit, j.timer)) = some (.draining, some 0, some (.draining, 60000))
      ∧ (granted.circuit 0).state = .busy ∧ (granted.trunk 2).circuit = some 0 ∧ lineOf granted = some (.draining, .beer)
      ∧ ({ p with cs := { p.cs with hold := true } } : Plant).csNext = none
      ∧ ((p.setCircuit 0 { Circuit.fresh with state := .fault }).setCircuit 1 { Circuit.fresh with state := .busy }).csNext = none
      ∧ (live id).plant.Settled ∧ (live id).plant.cs.jobs = [] := by decide +kernel

/-- A job that drains, with a pour on its line, keeps no queued job back; CS goes on until nothing is left to judge. -/
theorem test_grantBeside :
    let other : Job := { job .draining none with id := 2, circuit := some 1, lines := [8], remaining := [8], trunk := 1 }
    let p := queued (jobPlant .queued none id)
    let beside := (({ p with cs := { p.cs with jobs := p.cs.jobs ++ [other] } } : Plant).setLine 8 { line .draining .beer [] with index := 1 }).setTap
      31 { tap .pouring with station := some (9, 1), line := some 8 }
    beside.cs.jobs.find? beside.stillServes = none ∧ beside.cs.jobs.find? beside.drainingEnds = none
      ∧ beside.cs.jobs.find? beside.capCheckEnds = none ∧ beside.cs.jobs.find? beside.pauseEnds = none
      ∧ ((beside.csNext.getD p).job 1).map (·.state) = some .draining ∧ ((beside.csNext.getD p).job 2).map (·.state) = some .draining
      ∧ (p.csNext.getD p).csNext.isSome = true ∧ kept p.csSettle = some .capCheck ∧ p.csSettle.csNext = none := by decide +kernel

/-- CS's other judgements: a line to take, the end of draining, the end of the cap check, with steps and without, and a resume. -/
theorem test_csNext :
    let waits := lineAs .serving .beer [12] (jobPlant .draining none id)
    let drained := lineAs .draining .beer [12] (jobPlant .draining none id)
    let ready := fun f => capped (lineAs .draining .beer [12] (jobPlant .capCheck none f))
    let paused := fun f => capped (jobPlant .paused (some (.pause, 9)) f)
    lineOf (waits.csNext.getD waits) = some (.draining, .beer) ∧ kept (drained.csNext.getD drained) = some .capCheck
      ∧ kept ((ready id).csNext.getD waits) = some .running ∧ lineOf ((ready id).csNext.getD waits) = some (.cleaning, .water)
      ∧ kept (((ready id).setProgramme 0 (some ⟨[], true⟩)).csNext.getD waits) = none
      ∧ ((ready id).stepsOf 0) = .push .water 10 :: [.pulse .water 60, .prove .water 500 60 none]
      ∧ (((paused fun j => { j with pausedFrom := some .running, kept := some (.push, 5) }).csNext.getD waits).job 1).map
          (fun j => (j.state, j.timer)) = some (.running, some (.push, 5))
      ∧ kept ((paused fun j => { j with pausedFrom := some .beerReturn, returnLine := some 7 }).csNext.getD waits) = some .beerReturn
      ∧ ((paused id).setTap 30 (tap .cleaning)).csNext = none := by decide +kernel

theorem test_capAbsent :
    let paused := (capped (jobPlant .running (some (.push, 9)) id)).capAbsent 30
    (paused.job 1).map (fun j => (j.state, j.pausedFrom)) = some (.paused, some .running)
      ∧ (paused.job 1).map (fun j => (j.timer, j.kept)) = some (some (.pause, 300000), some (.push, 9))
      ∧ (paused.circuit 0).out.pump = false ∧ kept ((capped (jobPlant .beerReturn none id)).capAbsent 30) = some .paused
      ∧ kept ((capped (jobPlant .beerReturn none fun j => { j with remaining := [] })).capAbsent 30) = some .beerReturn
      ∧ kept ((capped (jobPlant .flushing none id)).capAbsent 30) = none
      ∧ kept ((capped (jobPlant .capCheck none id)).capAbsent 30) = some .capCheck ∧ ((job .running none).capSet.contains 30) = true := by decide +kernel

/-- The end of a step: the next step, whose tank may be LOW, or beer return from the chain head, or a lock without one. -/
theorem test_stepEnds :
    let p := capped (jobPlant .running none fun j => { j with step := some 0 })
    let last := capped (jobPlant .running none fun j => { j with step := some 2 })
    ((p.advance 1).job 1).map (fun j => (j.step, j.phase, j.base)) = some (some 1, some (true, 10000), none)
      ∧ (p.advance 1).flow 7 = true ∧ kept (({ p with cs := { p.cs with tanks := none } } : Plant).advance 1) = none
      ∧ ((last.advance 1).job 1).map (fun j => (j.state, j.returnLine)) = some (.beerReturn, some 7)
      ∧ ((last.advance 1).circuit 0).out.threshold = 500 ∧ ((last.advance 1).source 12).state = .onLine
      ∧ lineOf ((lineAs .cleaning .water [] last).advance 1) = some (.locked, .water)
      ∧ (last.stepsOf 0)[2 + 1]? = none := by decide +kernel

def sampling (k : Nat) (above : Bool) (p : Plant) : Plant :=
  at_ 1000 (circuit (fun c => { c with above := some above }) ({ p with cs := { p.cs with
    jobs := p.cs.jobs.map fun j => { j with consecutive := k } } }))

/-- A PUSH of factor 10 and a line of 1000 ml ends at 1000 ml; a PROVE passes at the fifth sample, 1000 ms after the one before. -/
theorem test_judgeStep :
    let j := { job .running none with step := some 0, base := some 0#24 }
    let push := capped (jobPlant .running none fun _ => j)
    let prove := { job .running none with step := some 2 }
    let proving := fun k => sampling k false (capped (jobPlant .running none fun j => { j with step := some 2 }))
    (((metered 1000 push).judgeStep j).job 1).bind (·.step) = some 1 ∧ (metered 999 push).judgeStep j = metered 999 push
      ∧ kept (({ push with cs := { push.cs with tanks := none } } : Plant).judgeStep j) = none
      ∧ (((proving 3).judgeStep { prove with consecutive := 3 }).job 1).map (·.consecutive) = some 4
      ∧ kept ((proving 4).judgeStep { prove with consecutive := 4 }) = some .beerReturn
      ∧ (((proving 4).judgeStep { prove with consecutive := 4 }).job 1).map (·.proof) = some true
      ∧ (at_ 999 (proving 4)).judgeStep { prove with consecutive := 4 } = at_ 999 (proving 4) := by decide +kernel

def returningJob (k : Nat) : Job := { job .beerReturn none with returnLine := some 7, base := some 0#24, consecutive := k }

/-- A return ends at the third sample above the threshold once the line's volume has run; the head's end takes the next, or locks. -/
theorem test_judgeReturn :
    let p := fun k n => metered n (sampling k true (capped (jobPlant .beerReturn none fun _ => returningJob 0)))
    let judged := fun k n => (p k n).judgeReturn (returningJob k)
    lineOf (judged 2 1000) = some (.serving, .beer) ∧ kept (judged 2 1000) = none ∧ lineOf (judged 2 999) = some (.cleaning, .water)
      ∧ ((judged 1 1000).job 1).map (·.consecutive) = some 2
      ∧ (((p 0 50).kegEnd 7 .kegOut).source 13).state = .onLine ∧ lineOf ((p 0 50).kegEnd 7 .kegOut) = some (.cleaning, .water)
      ∧ lineOf ((lineAs .cleaning .water [12] (p 0 50)).kegEnd 7 .kegOut) = some (.locked, .water)
      ∧ ((judged 2 1000).au.journal.map (·.body.num)).head? = some 5 := by decide +kernel

/-- The head's end writes its KEG_CLOSE entry, then the PURGE entry of what it gave, with the head that has ended (R6, R146). -/
theorem test_headPurged :
    let p := metered 50 (capped (jobPlant .beerReturn none fun _ => returningJob 0))
    (p.kegEnd 7 .kegOut).au.journal.map (·.body) = [p.closeOf 12 keg, .purge 7 (some 12) (some 4410) 50]
      ∧ ((p.kegEnd 7 .kegOut).source 12).keg = some (keg.drawn 50) := by decide +kernel

/-- A tap in the cap sets of two jobs: the cap event pauses the RUNNING one, and fails the flush of the other (log 86). -/
theorem test_capOfTwo :
    let p := (jobPlant .running none id).setCircuit 1 { Circuit.fresh with state := .busy, job := some 2 }
    let two : Plant := { p with cs := { p.cs with
      jobs := p.cs.jobs ++ [{ chem (job .flushing none) with id := 2, circuit := some 1, trunk := 1, lines := [], remaining := [] }] } }
    (two.cs.jobs.map (·.id)).Nodup ∧ (two.cs.jobs.filter fun k => k.capSet.contains 30).length = 2
      ∧ (two.capAbsent 30).cs.jobs.map (fun j => (j.id, j.state)) = [(1, .paused)]
      ∧ ((two.capAbsent 30).circuit 1).faultCause = some .cap := by decide +kernel

/-- The head's end with three positions behind it: the next is the head, with its coupler selected. -/
theorem test_headOfFour :
    let p := ((lineAs .cleaning .water [12, 13, 14, 15] (jobPlant .beerReturn none fun _ => returningJob 2)).setSource 14
      (source 2 .loaded (some 7))).setSource 15 (source 3 .loaded (some 7))
    let q := p.kegEnd 7 .fob
    (q.line 7).map (fun x => (x.chain, x.outlet)) = some ([13, 14, 15], ⟨some 1, .supply, false⟩) ∧ (q.source 13).state = .onLine
      ∧ (q.source 12).state = .spent ∧ (q.job 1).map (fun j => (j.returnLine, j.consecutive)) = some (some 7, 0) := by decide +kernel

/-- A job of two lines, 7 and 8, the second with a chain of its own. -/
def twoLines (steps : List Step) (seven eight : Content × List Nat) (j : Job) (p : Plant) : Plant :=
  (((lineAs .cleaning seven.1 seven.2 { p with cs := { p.cs with jobs := [{ j with lines := [7, 8], remaining := [7, 8] }] } }).setLine 8
    { line .cleaning eight.1 eight.2 with index := 8, job := some 1 }).setProgramme 0 (some ⟨steps, true⟩)).setSource 14 (source 2 .loaded (some 8))

def lastStep (steps : List Step) (seven eight : Content × List Nat) : Plant :=
  twoLines steps seven eight { job .running none with step := some 0 } (capped (jobPlant .running none id))

/-- Beer return goes on: a line without WATER in a return-only job is locked UNPROVEN, one without a head WATER, the next is returned,
and with none left the job completes. -/
theorem test_returnGoesOn :
    let only := lastStep [] (.unproven, [12]) (.water, [14])
    let q := only.enterReturn 1
    (only.passedOver true 7 = true ∧ only.passedOver true 8 = false ∧ only.passedOver false 7 = false)
      ∧ (only.stepsOf 0).length = 0 ∧ (only.job 1).map (·.remaining) = some [7, 8]
      ∧ lineOf q = some (.locked, .unproven)
      ∧ (q.job 1).map (fun j => (j.state, j.remaining)) = some (.beerReturn, [8])
      ∧ (q.job 1).map (fun j => (j.returnLine, j.timer)) = some (some 8, some (.beerReturn, 300000))
      ∧ q.flow 7 = false ∧ q.flow 8 = true ∧ (q.source 14).state = .onLine ∧ (q.tap 30).released = true := by decide +kernel

theorem test_returnGoesOn_steps :
    let some_ := lastStep [.push .water 10] (.water, []) (.water, [14])
    let q := (lastStep [.push .water 10] (.water, []) (.water, [])).enterReturn 1
    some_.passedOver false 7 = true ∧ lineOf (some_.advance 1) = some (.locked, .water)
      ∧ ((some_.advance 1).job 1).bind (·.returnLine) = some 8 ∧ q.cs.jobs = []
      ∧ q.raised.getLast? = some ⟨.jobState, 1, 7, 0, 0#32⟩ ∧ (q.circuit 0).state = .free
      ∧ q.au.journal.map (·.body) = [.cleanRun 1 2 0 none .notRun [(7, some .water), (8, some .water)]] := by decide +kernel

/-- A line whose return has ended: the next line's return starts, or the job completes; in a pause it waits (R145, R147, R148). The taps
of the line are released. -/
theorem test_lineDone :
    let p := fun (j : Job) seven eight => metered 1000 (sampling 2 true (twoLines [.push .water 10] (.water, seven) (.water, eight) j
      (capped (jobPlant .beerReturn none fun _ => j))))
    let two := fun j : Job => { j with lines := [7, 8], remaining := [7, 8] }
    let on := returningJob 2
    let waits : Job := { on with state := .paused, timer := some (.pause, 9) }
    let passed := (p on [12] [14]).judgeReturn (two on)
    let last := (p on [12] []).judgeReturn (two on)
    let lost := (p on [12] [14]).kegEnd 7 .kegOut
    let held := (p waits [12] [14]).kegEnd 7 .kegOut
    let next := fun q : Plant => (q.job 1).map fun j => (j.returnLine, j.remaining)
    lineOf passed = some (.serving, .beer) ∧ next passed = some (some 8, [8]) ∧ (passed.source 14).state = .onLine
      ∧ (passed.flow 7, passed.flow 8) = (false, true) ∧ (passed.tap 30).released = true
      ∧ last.cs.jobs = [] ∧ (last.line 8).map (·.state) = some .locked ∧ last.raised.getLast? = some ⟨.jobState, 1, 7, 0, 0#32⟩
      ∧ lineOf lost = some (.locked, .water) ∧ next lost = some (some 8, [8])
      ∧ lineOf held = some (.locked, .water) ∧ next held = some (none, [8]) ∧ (held.job 1).bind (·.timer) = some (.pause, 9) := by
  decide +kernel

/-- A job's end leaves its trunk connected to no circuit (R131, R148), at an abort and when the job completes; a settled line has the
outlet of its state, and a take for cleaning puts the head back and selects no coupler (R23, R24). -/
theorem test_jobEnds :
    let busy := fun p : Plant => p.setTrunk 2 { p.trunk 2 with circuit := some 0 }
    let aborted := fun c => (busy (lineAs .cleaning c [12] (capped (jobPlant .running none id)))).abortJob 1 .host
    let done := (busy (lastStep [] (.water, []) (.water, []))).enterReturn 1
    let taken := (lineAs .draining .beer [12] (jobPlant .capCheck none id)).takeForCleaning 7
    let outlet := fun q : Plant => (q.line 7).map (·.outlet)
    ((aborted .beer).trunk 2).circuit = none ∧ ((busy (jobPlant .running none id)).trunk 2).circuit = some 0
      ∧ (done.trunk 2).circuit = none ∧ done.cs.jobs = []
      ∧ outlet (aborted .beer) = some ⟨some 0, .supply, false⟩ ∧ outlet (aborted .water) = some ⟨none, .closed, false⟩
      ∧ (outlet (aborted .gas)).map (·.route) = some .closed
      ∧ outlet taken = some ⟨none, .clean, false⟩ ∧ (taken.source 12).state = .loaded := by decide +kernel

/-- The first step after the cap check, and what a resume writes: a PULSE step's phase, and the line under return alone. -/
theorem test_written :
    let first := fun p : Plant => p.csNext.getD p
    let ready := first (capped (lineAs .draining .beer [12] (jobPlant .capCheck none id)))
    let paused := fun on => first (capped (jobPlant .paused (some (.pause, 9)) fun j =>
      { j with pausedFrom := some .running, kept := some (.duration, 5), keptPhase := some (on, 3) }))
    let back := first (capped (jobPlant .paused (some (.pause, 9)) fun j =>
      { j with pausedFrom := some .beerReturn, returnLine := some 7, kept := some (.beerReturn, 5) }))
    let next := first (capped (jobPlant .paused (some (.pause, 9)) fun j => { j with pausedFrom := some .beerReturn }))
    (ready.circuit 0).out.pump = true ∧ (ready.circuit 0).out.medium = some .water ∧ (ready.circuit 0).out.drain = true ∧ ready.flow 7 = true
      ∧ (ready.job 1).map (fun j => (j.step, j.timer)) = some (some 0, some (.push, Config.pushLimit))
      ∧ ((paused true).circuit 0).out.pump = true ∧ (paused true).flow 7 = true ∧ ((paused false).circuit 0).out.pump = false
      ∧ (paused false).flow 7 = false ∧ ((paused false).job 1).map (fun j => (j.timer, j.phase)) = some (some (.duration, 5), some (false, 3))
      ∧ back.flow 7 = true ∧ (back.circuit 0).out.pump = false ∧ (back.job 1).map (·.timer) = some (some (.beerReturn, 5))
      ∧ (next.job 1).map (fun j => (j.state, j.returnLine)) = some (.beerReturn, some 7) := by decide +kernel

/-- A PURGE adds to the product and to the keg; with no place it is a gap, and nothing metered is nothing. -/
theorem test_purge :
    let p := metered 40 (jobPlant .beerReturn none id)
    let j := returningJob 0
    let q := p.purge j 7 (some 12)
    let noPlace : Plant := { p with au := { p.au with reserved := 2048 } }
    p.metered j = some 40 ∧ q.totals 3 = ({ Totals.zero with purge := 40 }, { Totals.zero with purge := 40 })
      ∧ (q.source 12).keg.map (·.dispensed) = some 40 ∧ (noPlace.purge j 7 (some 12)).totals 3 = (Totals.zero, Totals.zero)
      ∧ (noPlace.purge j 7 (some 12)).au.gap = 1 ∧ (metered 0 p).purge j 7 (some 12) = metered 0 p
      ∧ (p.metered { j with base := none }) = none ∧ p.metered { j with base := some 41#24 } = some 16777215 := by decide +kernel

theorem test_judgeFlush :
    let j := { chem (job .flushing none) with base := some 0#24 }
    let p := fun n => metered n (capped (jobPlant .flushing none fun _ => j))
    lineOf ((p 2000).judgeFlush j) = some (.locked, .unproven) ∧ ((p 2000).judgeFlush j).cs.jobs = []
      ∧ (p 1999).judgeFlush j = p 1999 ∧ (((p 2000).judgeFlush j).circuit 0).state = .free
      ∧ ((({ p 1 with cs := { (p 1).cs with tanks := none } } : Plant).judgeFlush j).circuit 0).faultCause = some .tankLow := by
  decide +kernel

/-- A cleaning status judges the job of a BUSY circuit, and judges nothing as initial values; a phase that ends with its step does not
switch. -/
theorem test_cleaningStatus :
    let j : Job := { job .running none with step := some 0, base := some 0#24 }
    let p := capped (jobPlant .running none fun _ => j)
    let inputs : Vector CircuitInput 2 := Vector.replicate 2 ⟨false, 1000#24, true⟩
    ((p.cleaningStatus (Vector.replicate 3 false) inputs false).job 1).bind (·.step) = some 1
      ∧ ((p.cleaningStatus (Vector.replicate 3 false) inputs true).job 1).bind (·.step) = some 0
      ∧ (p.circuit 0).job = some 1 ∧ (p.circuit 1).job = none
      ∧ (jobPlant .running (some (.duration, 7)) fun j => { j with step := some 1, phase := some (true, 7) }).phaseEnd 1 = none
      ∧ (jobPlant .running (some (.duration, 8)) fun j => { j with step := some 1, phase := some (true, 7) }).phaseEnd 1 = some 7 := by
  decide +kernel

/-! ### The journal -/

def entry (n : Word32) : Entry := ⟨n, 0#32, none, .stop true .request⟩

/-- A journal of 3 entries, numbered through the wrap, with the cursor at the second. -/
def journalled (f : Au → Au) : State := live fun p => { p with au := f { p.au with
  journal := [entry 0xFFFFFFFE#32, entry 0xFFFFFFFF#32, entry 0#32], nextSeq := 1#32, cursorSeq := 0xFFFFFFFF#32 } }

theorem test_record :
    let p := (journalled fun a => { a with mark := 4, armed := true }).plant
    1 ≤ 2048 - p.fill - p.au.reserved ∧ p.au.armed = true ∧ p.fill < p.au.mark ∧ p.au.mark ≤ p.fill + 1
      ∧ (let q := (journalled fun a => { a with reserved := 2045, gap := 65535 }).plant
         2048 - q.fill - q.au.reserved = 0) := by decide +kernel

theorem test_readJournal :
    Taken Kind.readJournal (.readJournal hdr none 32) (journalled id) ∧ Taken Kind.readJournal (.readJournal hdr (some 1#32) 1) (journalled id)
      ∧ Taken Kind.readJournal (.readJournal hdr (some 0xFFFFFFFE#32) 1) (journalled id) ∧ (entry 0#32).bytes.length ≤ 236 := by decide +kernel

def closing (n : Nat) : Entry := ⟨5#32, 0#32, some 2, .periodClose 1#32 (List.replicate n ⟨4410, 1, 2, 3, 4, 5, 6⟩)⟩

/-- Entries are read whole up to the count, the end or a misfit; a PERIOD_CLOSE of 9 records goes in two parts, and entries follow the
last; 8 records with the gap part fit whole, in 228 bytes. -/
theorem test_readEntries :
    let read := fun l n k => let r := readEntries l n entryRoom k true; (r.1.map List.length, r.2)
    read [entry 1#32, entry 2#32] 1 0 = ([13], 1, 0) ∧ read [entry 1#32, entry 2#32] 3 0 = ([13, 13], 2, 0)
      ∧ read [entry 1#32, closing 9] 3 0 = ([13], 1, 0) ∧ read [closing 9, entry 1#32] 3 0 = ([228], 0, 8)
      ∧ read [closing 9, entry 1#32] 3 8 = ([44, 13], 2, 0) ∧ read [closing 9, entry 1#32] 1 8 = ([44], 1, 0)
      ∧ read [closing 8, entry 1#32] 3 0 = ([228], 1, 0) ∧ read [closing 32] 1 24 = ([226], 1, 0) ∧ read [entry 1#32] 1 8 = ([], 0, 0)
      ∧ read [] 1 0 = ([], 0, 0) := by decide +kernel

theorem test_releaseJournal :
    Taken Kind.releaseJournal (.releaseJournal hdr 0xFFFFFFFF#32) (journalled fun a => { a with refused := true, armed := false, mark := 3 })
      ∧ Taken Kind.releaseJournal (.releaseJournal hdr 0xFFFFFFFD#32) (journalled id)
      ∧ Taken Kind.setJournalMark (.setJournalMark hdr 2016) (journalled id) := by decide +kernel

/-- A release that gives a refused reservation its space raises JOURNAL_LEVEL SPACE with the fill, first. -/
theorem test_space :
    let t := after (exec (.releaseJournal hdr 0xFFFFFFFF#32) (journalled fun a => { a with refused := true, reserved := 2014 }))
    let u := after (exec (.releaseJournal hdr 0xFFFFFFFF#32) (journalled fun a => { a with refused := true, reserved := 2015 }))
    t.plant.au.refused = false ∧ t.hl.notices = [⟨.journalLevel, 0, 1, 1, 0#32⟩]
      ∧ u.plant.au.refused = true ∧ u.hl.notices = [] := by decide +kernel

theorem test_closePeriod :
    Taken Kind.closePeriod (.closePeriod hdr) (live fun p => p.setTap 30 { tap .idle with creep := 10 })
      ∧ ((live fun p => p.setTap 30 { tap .idle with creep := 10 }).plant.tap 30).creep = 10 := by decide +kernel

/-! ### Modes, clock and cellar stop -/

def proposed (f : Plant → Plant) : State :=
  config fun p => f (((p.setSource 12 (source 0 .loaded (some 7))).setLine 7 (line .dry .beer [12, 13])).setTicket 0 none)

theorem test_goLive :
    Taken Kind.goLive (.goLive hdr) (proposed id) ∧ (proposed id).plant.liveFault = none ∧ (proposed id).plant.room = true
      ∧ Ready Kind.goLive hdr (config id) ∧ (config id).plant.liveFault = some ⟨.lines, 7, 5⟩
      ∧ (config fun p => p.modSbc fun b => { b with scan := some [] }).plant.sbc.scan ≠ none := by decide +kernel

/-- Taken while stop is in force, the START entry is followed by the STOP entry of its onset. -/
theorem test_goLive_stop :
    let stopped := proposed fun p => p.modMsc fun m => { m with stop := .releasable, source := some .request }
    (after (exec (.goLive hdr) stopped)).plant.au.journal.map (·.body) = [stopped.plant.startEntry, .stop true .request]
      ∧ (after (exec (.goLive hdr) (proposed id))).plant.au.journal.map (·.body) = [(proposed id).plant.startEntry] := by decide +kernel

/-- A line of BEER goes live with its head ON_LINE at its outlet, one declared out of service with the route closed (R10, R177). -/
theorem test_goLive_outlet :
    let live_ := fun f => (((proposed f).plant.goLive).line 7).map fun x => (x.state, x.outlet)
    live_ id = some (.serving, ⟨some 0, .supply, false⟩)
      ∧ live_ (fun p => p.setLine 7 { line .dry .beer [12, 13] with declaredOut := true }) = some (.outOfService, ⟨some 0, .closed, false⟩)
      ∧ live_ (fun p => p.setLine 7 (line .dry .water [12])) = some (.locked, ⟨none, .closed, false⟩) := by decide +kernel

/-- The checks of Table 9-3, each as the first that fails. -/
theorem test_liveFaults :
    let fault (f : Plant → Plant) : Option LiveFault := (proposed f).plant.liveFault
    fault (fun p => p.setStation 2 Station.unused) = some ⟨.stations, 0, 1⟩ ∧ fault (fun p => p.setProduct 3 none) = some ⟨.lines, 7, 2⟩
      ∧ fault (fun p => p.setTrunk 2 Trunk.fresh) = some ⟨.lines, 7, 3⟩
      ∧ fault (fun p => p.setStation 26 Station.unused) = some ⟨.lines, 7, 4⟩
      ∧ fault (fun p => (p.setSource 13 (source 1 .spent none)).setTap 0 { tap .unassigned with station := some (26, 0) })
          = some ⟨.lines, 7, 5⟩
      ∧ fault (fun p => p.setTap 30 { tap .unassigned with station := some (9, 2), line := some 9 }) = some ⟨.taps, 30, 6⟩
      ∧ fault (fun p => (p.setTap 30 { tap .unassigned with line := some 9 }).setProgramme 5 (some ⟨[.soak 10], false⟩)) = some ⟨.taps, 30, 7⟩
      ∧ fault (fun p => p.setProgramme 5 (some ⟨[.soak 10], false⟩)) = some ⟨.programmes, 5, 8⟩ := by decide +kernel

theorem test_setClock :
    LinkReady State.reset ∧ hdr.length = none ∧ Quiet State.reset ∧ Taken Kind.setClock (.setClock hdr 0xFFFFFFFF#32) State.reset := by
  decide +kernel

def stopping (st : StopState) (low : Bool) : State :=
  live fun p => p.modMsc fun m => { m with stop := st, source := some .request, stopActive := true, pinLow := low }

theorem test_stop :
    Taken Kind.stop (.stop hdr) (live pouring) ∧ Taken Kind.stop (.stop hdr) (stopping .active true)
      ∧ Taken Kind.resume (.resume hdr) (stopping .releasable false) ∧ (live id).plant.msc.stop = .clear
      ∧ (stopping .releasable false).plant.msc.stop = .releasable ∧ (stopping .active true).plant.msc.stop = .active := by decide +kernel

theorem test_resumeNotice :
    (after (exec (.resume hdr) (stopping .releasable false))).hl.notices.head? = some ⟨.stopState, 0, 0, 0, 0#32⟩ := by decide +kernel

theorem test_deviceReset :
    exec (.deviceReset false) { State.reset with pending := [.gapError] } = .next { State.reset with pending := [.gapError] } := rfl

end Sys2Proof.Tests
end

