-- ==== Sys2Proof/Proofs/Tickets.lean ====
section
/-!
PROOF. The top-up window (R30): how it is stored, what the resets make of it, and where it acts.
-/

namespace Sys2Proof.Machine

/-! ### How the window is stored -/

/-- SET_TOPUP_WINDOW is taken in CONFIG and in LIVE (Table 9-1). -/
theorem setTopupWindow_takenIn (live : Bool) : Kind.setTopupWindow.takenIn live = true := by
  cases live <;> rfl

theorem exec_setTopupWindow (h : ReqHdr) (window : Nat) (s : State) (hr : Ready Kind.setTopupWindow h s) :
    exec (.setTopupWindow h window) s =
      .next (s.checked Kind.setTopupWindow h [badIf (120 < window) 1]
        (s.answered Kind.setTopupWindow h [] { s.plant with tkm := { s.plant.tkm with window := window } })) :=
  request_checked _ h _ s _ _ [] hr rfl

/-! ### The window at a reset -/

/-- TKM is reset whatever the pin's level: the onset of a stop leaves TKM as it is (R178). -/
theorem Plant.afterReset_tkm (pinLow : Bool) : (Plant.afterReset pinLow).tkm = Tkm.reset := by
  cases pinLow
  · rfl
  · simp [Plant.afterReset, Plant.modMsc, Plant.reset]

theorem exec_deviceReset_tkm (pinLow : Bool) (s : State) :
    ∃ t, exec (.deviceReset pinLow) s = .next t ∧ t.plant.tkm = Tkm.reset :=
  ⟨_, rfl, Plant.afterReset_tkm pinLow⟩

/-- A link reset leaves TKM as it is, whether or not RXD was low before (R186). -/
theorem exec_linkReset_tkm (s : State) : ∃ t, exec .linkReset s = .next t ∧ t.plant.tkm = s.plant.tkm := by
  have hexec : exec .linkReset s = execLinkReset s := rfl
  rw [hexec, execLinkReset]
  split
  · exact ⟨_, rfl, rfl⟩
  · exact ⟨_, rfl, rfl⟩

/-! ### Where the window acts -/

/-- With no window a pour that leaves more than the tolerance is SHORT, whatever its cause and wherever its ticket came from (R34). -/
theorem Plant.pourOutcome_short_of_window_zero (p : Plant) (k : Ticket) (ml : Nat) (c : EndCause) (hw : p.tkm.window = 0)
    (hml : ml + p.tolerance k.product < k.remaining) : p.pourOutcome k ml c = .short := by
  have hleft : ¬ k.remaining ≤ ml + p.tolerance k.product := by omega
  rw [Plant.pourOutcome, if_neg hleft, if_pos hw, ite_self]

/-- A queue event sets marks and lamps and leaves every ticket as it is (R39, R49). -/
@[simp] theorem Plant.queueEvent_ticket (p : Plant) (a i : Nat) : (p.queueEvent a).ticket i = p.ticket i :=
  Plant.ticket_congr (by simp) i

/-- The first pour result that leaves a ticket PARTIAL sets its deadline, and starts its timer, by the window in force (R35). -/
theorem Plant.ticket_partTicket_first (p : Plant) (i : Nat) (k : Ticket) (ml : Nat) (hi : i < 160) (hd : k.topupDeadline = none) :
    (p.partTicket i k ml).ticket i = some { k with
      state := .part
      remaining := k.remaining - ml
      topupDeadline := some (p.clock + BitVec.ofNat 32 p.tkm.window)
      topup := .running (p.now + p.tkm.window * 1000) } := by
  rw [Plant.partTicket, Plant.queueEvent_ticket, Plant.ticket_setTicket, if_pos ⟨rfl, hi⟩, hd]

/-- A later one leaves the deadline and the timer as they are (R35). -/
theorem Plant.ticket_partTicket_again (p : Plant) (i : Nat) (k : Ticket) (ml : Nat) (hi : i < 160) (hd : k.topupDeadline ≠ none) :
    (p.partTicket i k ml).ticket i = some { k with state := .part, remaining := k.remaining - ml } := by
  obtain ⟨d, hd⟩ := Option.ne_none_iff_exists'.mp hd
  rw [Plant.partTicket, Plant.queueEvent_ticket, Plant.ticket_setTicket, if_pos ⟨rfl, hi⟩, hd]

theorem Plant.partTicket_deadline (p : Plant) (i : Nat) (k : Ticket) (ml : Nat) (hi : i < 160) :
    ∃ r, (p.partTicket i k ml).ticket i = some r
      ∧ (k.topupDeadline = none → r.topupDeadline = some (p.clock + BitVec.ofNat 32 p.tkm.window)
          ∧ r.topup = .running (p.now + p.tkm.window * 1000))
      ∧ (k.topupDeadline ≠ none → r.topupDeadline = k.topupDeadline ∧ r.topup = k.topup) := by
  by_cases hd : k.topupDeadline = none
  · exact ⟨_, p.ticket_partTicket_first i k ml hi hd, fun _ => ⟨rfl, rfl⟩, fun hne => absurd hd hne⟩
  · exact ⟨_, p.ticket_partTicket_again i k ml hi hd, fun hnone => absurd hnone hd, fun _ => ⟨rfl, rfl⟩⟩

end Sys2Proof.Machine

namespace Sys2Proof.Proofs

open Sys2Proof.Machine

/-- Settles O27: the request goes through the shared operation, each reset is read off TKM, and the two uses of the window are
`pourOutcome` and `partTicket`. -/
theorem topupWindowIsStored : Obligations.TopupWindowIsStored := by
  refine ⟨fun h window s hlink hlen hquiet => ?_, fun pinLow s => ?_, fun s => ?_, ?_, ?_⟩
  · exact exec_setTopupWindow h window s ⟨hlink, hlen, setTopupWindow_takenIn _, hquiet⟩
  · obtain ⟨t, hexec, htkm⟩ := exec_deviceReset_tkm pinLow s
    exact ⟨t, hexec, by rw [htkm]; rfl⟩
  · obtain ⟨t, hexec, htkm⟩ := exec_linkReset_tkm s
    exact ⟨t, hexec, by rw [htkm]⟩
  · exact Plant.pourOutcome_short_of_window_zero
  · exact Plant.partTicket_deadline

end Sys2Proof.Proofs
end

