-- ==== Sys2Proof/Proofs/Cooling.lean ====
section
/-!
PROOF. The stages at a bath reading (R113 to R115): what a start and a stop write, and which of them a reading brings.
-/

namespace Sys2Proof.Machine

/-! ### Stage entries and recorded times -/

theorem Cc.stage_setStage (c : Cc) (i j : Nat) (s : Stage) :
    (c.setStage i s).stage j = if i = j ∧ i < 3 then s else c.stage j := getD_setIfInBounds _ _ _ _ _

@[simp] theorem Cc.stage_setStage_same (c : Cc) {i : Nat} (s : Stage) (hi : i < 3) : (c.setStage i s).stage i = s := by
  rw [Cc.stage_setStage, if_pos ⟨rfl, hi⟩]

theorem Cc.stage_setStage_other (c : Cc) {i j : Nat} (s : Stage) (hj : j ≠ i) : (c.setStage i s).stage j = c.stage j := by
  rw [Cc.stage_setStage, if_neg fun h => hj h.1.symm]

/-- A minimum time that was never started counts as met (R112, R113). -/
theorem passed_iff (now span : Nat) (time : Option Nat) :
    passed now span time = true ↔ ∀ b, time = some b → b + span ≤ now := by
  cases time with
  | none => simp [passed]
  | some b => simp [passed]

/-! ### The rotation of the stage order (R115) -/

/-- A rotation writes the stage order list alone, and only when no stage is ON. -/
theorem Cc.rotated_eq (c : Cc) :
    c.rotated = { c with order := if c.anyOn then c.order else match c.order with | [] => [] | k :: rest => rest ++ [k] } := by
  unfold Cc.rotated
  split
  · rfl
  · rfl

@[simp] theorem Cc.rotated_stages (c : Cc) : c.rotated.stages = c.stages := by rw [Cc.rotated_eq]

@[simp] theorem Cc.rotated_stage (c : Cc) (i : Nat) : c.rotated.stage i = c.stage i := by rw [Cc.stage, Cc.stage, Cc.rotated_stages]

@[simp] theorem Cc.rotated_lastStart (c : Cc) : c.rotated.lastStart = c.lastStart := by rw [Cc.rotated_eq]

/-! ### A start (R113) and a stop (R114) -/

theorem Cc.startStage_of_no_candidate {c : Cc} (now : Nat) (h : c.startCandidate = none) : c.startStage now = c := by
  rw [Cc.startStage, h]

theorem Cc.startStage_of_candidate {c : Cc} {i : Nat} (now : Nat) (h : c.startCandidate = some i) :
    c.startStage now =
      if passed now c.minOff (c.stage i).lastChange && passed now Config.stepDelay c.lastStart then
        { c.setStage i { c.stage i with command := true, lastChange := some now } with lastStart := some now }
      else c := by
  rw [Cc.startStage, h]

theorem Cc.stopStage_of_no_candidate {c : Cc} (now : Nat) (h : c.stopCandidate = none) : c.stopStage now = c := by
  rw [Cc.stopStage, h]

theorem Cc.stopStage_of_candidate {c : Cc} {i : Nat} (now : Nat) (h : c.stopCandidate = some i) :
    c.stopStage now =
      if passed now c.minOn (c.stage i).lastChange then
        (c.setStage i { c.stage i with command := false, lastChange := some now }).rotated
      else c := by
  rw [Cc.stopStage, h]

/-- A start whose times are met turns the candidate ON and touches no other stage. -/
theorem Cc.startStage_of_met {c : Cc} {i now : Nat} (hi : i < 3) (h : c.startCandidate = some i)
    (hoff : passed now c.minOff (c.stage i).lastChange = true) (hstep : passed now Config.stepDelay c.lastStart = true) :
    (c.startStage now).stage i = { c.stage i with command := true, lastChange := some now }
      ∧ (c.startStage now).lastStart = some now
      ∧ (∀ j, j ≠ i → (c.startStage now).stage j = c.stage j) ∧ (c.startStage now).order = c.order := by
  rw [Cc.startStage_of_candidate now h, hoff, hstep]
  exact ⟨c.stage_setStage_same _ hi, rfl, fun j hj => c.stage_setStage_other _ hj, rfl⟩

theorem Cc.startStage_of_not_met {c : Cc} {i now : Nat} (h : c.startCandidate = some i)
    (hnot : ¬ (passed now c.minOff (c.stage i).lastChange = true ∧ passed now Config.stepDelay c.lastStart = true)) :
    c.startStage now = c := by
  rw [Cc.startStage_of_candidate now h, if_neg (by rwa [Bool.and_eq_true])]

/-- A stop whose time is met turns the candidate OFF, touches no other stage, and rotates the order when no stage is left ON. -/
theorem Cc.stopStage_of_met {c : Cc} {i now : Nat} (hi : i < 3) (h : c.stopCandidate = some i)
    (hon : passed now c.minOn (c.stage i).lastChange = true) :
    (c.stopStage now).stage i = { c.stage i with command := false, lastChange := some now }
      ∧ (∀ j, j ≠ i → (c.stopStage now).stage j = c.stage j)
      ∧ (c.stopStage now).lastStart = c.lastStart
      ∧ (c.stopStage now).order =
          (if (c.stopStage now).anyOn then c.order else match c.order with | [] => [] | k :: rest => rest ++ [k]) := by
  rw [Cc.stopStage_of_candidate now h, if_pos hon]
  refine ⟨?_, fun j hj => ?_, ?_, ?_⟩
  · rw [Cc.rotated_stage, Cc.stage_setStage_same _ _ hi]
  · rw [Cc.rotated_stage, Cc.stage_setStage_other _ _ hj]
  · rw [Cc.rotated_lastStart]; rfl
  · rw [Cc.rotated_eq]; rfl

theorem Cc.stopStage_of_not_met {c : Cc} {i now : Nat} (h : c.stopCandidate = some i)
    (hnot : ¬ passed now c.minOn (c.stage i).lastChange = true) : c.stopStage now = c := by
  rw [Cc.stopStage_of_candidate now h, if_neg hnot]

/-! ### Which of the two a bath reading brings (R111, R113, R114) -/

/-- The states in which a bath reading judges the stages (R111): cooling is in force and the bath probe is sound. -/
def Cc.Judging (c : Cc) : Prop := (c.state = .running ∨ c.state = .degraded) ∧ c.probeFault = false

theorem Cc.judgeStages_of_not_judging {c : Cc} (now : Nat) (h : ¬ c.Judging) : c.judgeStages now = c := by
  rw [Cc.judgeStages, if_neg]
  simpa [Cc.Judging] using h

theorem Cc.judgeStages_of_judging {c : Cc} {t : Int} (now : Nat) (h : c.Judging) (hbath : c.lastBath = some t) :
    c.judgeStages now =
      if c.effective + 5 < t then c.startStage now else if t < c.effective - 5 then c.stopStage now else c := by
  rw [Cc.judgeStages, if_pos (by simpa [Cc.Judging] using h), hbath]
  rfl

theorem Cc.judgeStages_above {c : Cc} {t : Int} (now : Nat) (h : c.Judging) (hbath : c.lastBath = some t)
    (ht : c.effective + 5 < t) : c.judgeStages now = c.startStage now := by
  rw [Cc.judgeStages_of_judging now h hbath, if_pos ht]

theorem Cc.judgeStages_below {c : Cc} {t : Int} (now : Nat) (h : c.Judging) (hbath : c.lastBath = some t)
    (ht : t < c.effective - 5) : c.judgeStages now = c.stopStage now := by
  rw [Cc.judgeStages_of_judging now h hbath, if_neg (by omega), if_pos ht]

/-- A reading within the band starts and stops nothing, whether or not it is judged. -/
theorem Cc.judgeStages_within {c : Cc} {t : Int} (now : Nat) (hbath : c.lastBath = some t)
    (hlow : c.effective - 5 ≤ t) (hhigh : t ≤ c.effective + 5) : c.judgeStages now = c := by
  by_cases h : c.Judging
  · rw [Cc.judgeStages_of_judging now h hbath, if_neg (by omega), if_neg (by omega)]
  · exact Cc.judgeStages_of_not_judging now h

end Sys2Proof.Machine

namespace Sys2Proof.Proofs

open Sys2Proof.Machine

/-- Settles O45: a judged reading above the band is `startStage`, one below it is `stopStage`, any other leaves CC as it is. -/
theorem stagesStartAndStopOneByOne : Obligations.StagesStartAndStopOneByOne := by
  intro c now t hbath d judged met minOn minOff
  have hmet (span : Nat) (time : Option Nat) : passed now span time = true ↔ met span time := passed_iff now span time
  have hjudged : judged = true ↔ c.Judging := decide_eq_true_iff
  have habove (hj : judged = true) (ht : c.effective + 5 < t) : d = c.startStage now :=
    Cc.judgeStages_above now (hjudged.mp hj) hbath ht
  have hbelow (hj : judged = true) (ht : t < c.effective - 5) : d = c.stopStage now :=
    Cc.judgeStages_below now (hjudged.mp hj) hbath ht
  refine ⟨?quiet, fun i hi hj ht hcand => ⟨?starts, ?startHeld⟩, fun hj ht hcand => ?noStart,
    fun i hi hj ht hcand => ⟨?stops, ?stopHeld⟩, fun hj ht hcand => ?noStop⟩
  case quiet =>
    rintro (hj | ⟨hlow, hhigh⟩)
    · exact Cc.judgeStages_of_not_judging now fun h => Bool.false_ne_true (hj.symm.trans (hjudged.mpr h))
    · exact Cc.judgeStages_within now hbath hlow hhigh
  case starts =>
    intro hoff hstep
    rw [habove hj ht]
    exact Cc.startStage_of_met hi hcand ((hmet _ _).mpr hoff) ((hmet _ _).mpr hstep)
  case startHeld =>
    intro hnot
    exact (habove hj ht).trans (Cc.startStage_of_not_met hcand fun ⟨hoff, hstep⟩ => hnot ⟨(hmet _ _).mp hoff, (hmet _ _).mp hstep⟩)
  case noStart => exact (habove hj ht).trans (Cc.startStage_of_no_candidate now hcand)
  case stops =>
    intro hon
    rw [hbelow hj ht]
    exact Cc.stopStage_of_met hi hcand ((hmet _ _).mpr hon)
  case stopHeld =>
    intro hnot
    exact (hbelow hj ht).trans (Cc.stopStage_of_not_met hcand fun hon => hnot ((hmet _ _).mp hon))
  case noStop => exact (hbelow hj ht).trans (Cc.stopStage_of_no_candidate now hcand)

end Sys2Proof.Proofs
end

