-- ==== Sys2Proof/Proofs/Modes.lean ====
section
/-!
PROOF. Setting the part clock (R174): what the request writes, and when the clock next advances (R173).
-/

namespace Sys2Proof.Machine

/-! ### The request (R174) -/

/-- SET_CLOCK is taken in CONFIG and in LIVE (Table 9-1). -/
theorem setClock_takenIn (live : Bool) : Kind.setClock.takenIn live = true := by
  cases live <;> rfl

theorem exec_setClock (h : ReqHdr) (value : Word32) (s : State) (hr : Ready Kind.setClock h s) :
    exec (.setClock h value) s =
      .next (s.answered Kind.setClock h (leBytes 4 s.plant.clock.toNat)
        (s.plant.modMsc fun m => { m with partClock := value, clockSince := m.timeBase })) :=
  request_done _ h _ s _ _ hr rfl

/-! ### The commands that are due, and the part clock's among them (R173) -/

theorem due_iff (now : Nat) (deadline : Option Nat) : due now deadline = true ↔ ∃ d, deadline = some d ∧ d ≤ now := by
  cases deadline with
  | none => simp [due]
  | some d => simp [due]

theorem mem_whenDue {now : Nat} {deadline : Option Nat} {c x : Instr} :
    x ∈ whenDue now deadline c ↔ x = c ∧ ∃ d, deadline = some d ∧ d ≤ now := by
  rw [← due_iff, whenDue]
  cases due now deadline with
  | false => simp
  | true => simp

/-- A timer offers its own command alone. -/
theorem not_mem_whenDue_of_ne {now : Nat} {deadline : Option Nat} {c x : Instr} (h : x ≠ c) : x ∉ whenDue now deadline c :=
  fun hx => h (mem_whenDue.mp hx).1

theorem timerCommand_ne_partClockAdvance (k : JobTimer) (job : Nat) : timerCommand k job ≠ .partClockAdvance := by
  cases k <;> simp [timerCommand]

theorem partClockAdvance_not_mem_jobCommands (now : Nat) (j : Job) : Instr.partClockAdvance ∉ jobCommands now j := by
  rw [jobCommands, List.mem_append, not_or]
  refine ⟨not_mem_whenDue_of_ne nofun, ?_⟩
  cases j.timer with
  | none => exact List.not_mem_nil
  | some t => exact not_mem_whenDue_of_ne (timerCommand_ne_partClockAdvance t.1 j.id).symm

/-- The part clock's second is the only timer whose end is the clock's command. -/
theorem Plant.partClockAdvance_mem_dueCommands (p : Plant) :
    Instr.partClockAdvance ∈ p.dueCommands ↔ p.msc.clockSince + 1000 ≤ p.now := by
  have hclock : Instr.partClockAdvance ∈ whenDue p.now (some (p.msc.clockSince + 1000)) .partClockAdvance
      ↔ p.msc.clockSince + 1000 ≤ p.now := by simp [mem_whenDue]
  have hentries (n : Nat) (end_ : Nat → Option Nat) (c : Nat → Instr) (hc : ∀ i, .partClockAdvance ≠ c i) :
      Instr.partClockAdvance ∉ (List.range n).flatMap fun i => whenDue p.now (end_ i) (c i) := by
    simp [not_mem_whenDue_of_ne (hc _)]
  have hjobs : Instr.partClockAdvance ∉ p.cs.jobs.flatMap (jobCommands p.now) := by
    simp [partClockAdvance_not_mem_jobCommands]
  simp [Plant.dueCommands, hclock, hjobs, hentries, not_mem_whenDue_of_ne]

end Sys2Proof.Machine

namespace Sys2Proof.Proofs

open Sys2Proof.Machine

/-- Settles O58: both modes take the request, its owner has no check, and the clock's next second is counted from the time base
of the arrival. -/
theorem setClockMovesOnlyTheClock : Obligations.SetClockMovesOnlyTheClock := by
  intro h value s hlink hlen hquiet m
  refine ⟨exec_setClock h value s ⟨hlink, hlen, setClock_takenIn _, hquiet⟩, fun k => ?_⟩
  calc Instr.partClockAdvance ∈ ({ s.plant with msc := { m with timeBase := m.timeBase + k } } : Plant).dueCommands
      ↔ s.plant.msc.timeBase + 1000 ≤ s.plant.msc.timeBase + k := Plant.partClockAdvance_mem_dueCommands _
    _ ↔ 1000 ≤ k := Nat.add_le_add_iff_left

end Sys2Proof.Proofs
end
